-- ==== Sys2Proof/Word.lean ====
section
/-! DEFINITION. The word types of the RFC: a sample is a byte, a dimension field is 16 bits, a register is 32 bits
(00_scope.md R6, R7; 10_state.md section 2). -/

namespace Sys2Proof

/-- A frame memory byte, one sample (`PIX_BITS` = 8, R6; R61). -/
abbrev Byte := BitVec 8

/-- A dimension field (`DIM_BITS` = 16, R6). -/
abbrev Half := BitVec 16

/-- A register of the register block (R20, R38). -/
abbrev Word := BitVec 32

end Sys2Proof
end

