-- ==== Sys2Proof/Config.lean ====
section
/-! DEFINITION. What one RFC fixes: its parameters as a record (00_scope.md R6), the source's literals among them (R5), the
named constants of the hardware, and the free values, constants with no body. -/

namespace Sys2Proof

/-- One 2×2 halftone pattern: the four bytes (tl, tr, bl, br) of 46_halftone.md R223. -/
structure Pattern where
  tl : Byte
  tr : Byte
  bl : Byte
  br : Byte
  deriving DecidableEq, Repr

/-- `HT_PATTERN[0..4]`, five patterns, one for each bucket (46_halftone.md R223). -/
structure Patterns where
  p0 : Pattern
  p1 : Pattern
  p2 : Pattern
  p3 : Pattern
  p4 : Pattern
  deriving DecidableEq, Repr

/-- The parameters of 00_scope.md R6 that hold a numeric literal of the source: LOW_T, HIGH_T, HT_BAND and FS_STEP. The literals
are unaudited, so a model can be instantiated with corrected values (R5; 93_implementation_defined.md IP5). -/
structure Literals where
  lowT   : Nat
  highT  : Nat
  htBand : Nat
  fsStep : Nat
  deriving DecidableEq, Repr

/-- The values of the hardware: LOW_T = 168 and HIGH_T = 101 (44_edge_thresholder.md R180), HT_BAND = 255/5
(46_halftone.md R222), FS_STEP = 255/15 (47_floyd_steinberg.md R240). -/
def Literals.source : Literals where
  lowT := 168
  highT := 101
  htBand := 51
  fsStep := 17

/-- The parameters of 00_scope.md R6 that a model takes as an argument: the OPEN ones (the largest plane, the size of frame
memory, the two platform base addresses and the halftone patterns) and the literals. (DESIGN CHOICE, log 1: `State`
carries them, and no step writes them.) -/
structure Params where
  maxW      : Nat
  maxH      : Nat
  fmemBytes : Nat
  regBase   : Nat
  fmemBase  : Nat
  patterns  : Patterns
  literals  : Literals
  deriving DecidableEq, Repr

namespace Config

/-- The size of the register window in bytes (10_state.md section 2, 20_memory.md R60). -/
def regBytes : Nat := 0x100

/-- `ID_VALUE` (00_scope.md R6, 10_state.md R22). -/
def idValue : Word := 0x52460001

/-- The n-th free byte: any value 0 to 255 (93_implementation_defined.md A1, A3, A4, A5; log 6). Nothing fixes it. -/
opaque freeByte : Nat → Byte

/-- The n-th free word: any 32-bit value (93_implementation_defined.md A2; log 6). Nothing fixes it. -/
opaque freeWord : Nat → Word

/-- The n-th free choice: whether a destination byte of an aborted command was overwritten (70_reset_and_hazards.md
R342, 93_implementation_defined.md A3; log 12). Nothing fixes it. -/
opaque freeBit : Nat → Bool

end Config

/-- The default patterns of 46_halftone.md R223: pattern k has k sub-pixels at 255, filled in the order tl, br, tr, bl. -/
def Patterns.default : Patterns where
  p0 := ⟨0, 0, 0, 0⟩
  p1 := ⟨255, 0, 0, 0⟩
  p2 := ⟨255, 0, 0, 255⟩
  p3 := ⟨255, 255, 0, 255⟩
  p4 := ⟨255, 255, 255, 255⟩

/-- The test instance of 95_test_vectors.md §0. (DESIGN CHOICE, log 1: `State.reset` carries it; the two bases are "any
non-overlapping addresses" there.) -/
def Params.reference : Params where
  maxW := 64
  maxH := 64
  fmemBytes := 0x1000
  regBase := 0x10000
  fmemBase := 0
  patterns := Patterns.default
  literals := Literals.source

/-- The ranges of 00_scope.md R6, windows that do not overlap (20_memory.md R65), and sixteen dither levels that are distinct and
fit a sample (47_floyd_steinberg.md R240; log 25). -/
structure Params.Valid (p : Params) : Prop where
  maxW_range : 1 ≤ p.maxW ∧ p.maxW ≤ 65535
  maxH_range : 1 ≤ p.maxH ∧ p.maxH ≤ 65535
  fmem_range : 1 ≤ p.fmemBytes ∧ p.fmemBytes ≤ 2 ^ 32
  windows_apart : p.regBase + Config.regBytes ≤ p.fmemBase ∨ p.fmemBase + p.fmemBytes ≤ p.regBase
  step_range : 1 ≤ p.literals.fsStep ∧ 15 * p.literals.fsStep ≤ 255

end Sys2Proof
end

