-- ==== Sys2Proof/Syntax.lean ====
section
/-! DEFINITION. The instruction set: the eight command words of spec/opcode_table.json, and the operands a host gives a
command (30_encoding.md R80 to R83, R88). -/

namespace Sys2Proof

/-- A command of the RFC, one constructor for each row of the opcode table (30_encoding.md R81). The command word holds no
register fields and no immediates (R80), so no constructor takes an argument. -/
inductive Instr where
  | gblur
  | sobel
  | nms
  | thresh
  | hyst
  | htone
  | fsdith
  | boxds
  deriving DecidableEq, Repr

/-- A command as a host script writes it, `OP src, dst, W, H` or `BOXDS src, dst, W, H, TW, TH`, with the suffix `.I` as
`irq` (30_encoding.md R88). The numbers are a script's, not yet register values; `Command.wellFormed` bounds them. -/
structure Command where
  op  : Instr
  src : Nat
  dst : Nat
  w   : Nat
  h   : Nat
  tw  : Nat
  th  : Nat
  irq : Bool
  deriving DecidableEq, Repr

end Sys2Proof
end

