-- ==== Sys2Proof/Machine/State.lean ====
section
/-! DEFINITION. The state of the RFC as plain data (10_state.md), the events that reach it from outside, the reasons a run can
stop, and the state after reset (70_reset_and_hazards.md R341). -/

namespace Sys2Proof.Machine

/-- Frame memory, or a part of it: (offset, byte) pairs, offsets strictly rising. An offset with no entry holds no value
(20_memory.md R67; log 7). -/
abbrev Memory := List Host.Cell

/-- The six command errors (60_exceptions.md R300). -/
inductive CmdError where
  | illegalCmd
  | badDim
  | badRatio
  | range
  | overlap
  | noOrient
  deriving DecidableEq, Repr

/-- A gradient pair (gx, gy), two integers (10_state.md R33). -/
structure Grad where
  gx : Int
  gy : Int
  deriving DecidableEq, Repr

/-- The ORIENT buffer: OV, OW, OH and OG (10_state.md R33). -/
structure Orient where
  valid  : Bool
  width  : Half
  height : Half
  pairs  : List Grad
  deriving DecidableEq, Repr

/-- The latched command state (10_state.md R36): L_CMD, L_SRC, L_DST, (L_W, L_H), (L_TW, L_TH), and the snapshot of
40_command_common.md R103: the source plane's bytes, and the ORIENT buffer for NMS. `raced` is the model's own mark that a
HOST_RACE hit the command (20_memory.md R71; log 10). -/
structure Latch where
  cmd    : Word
  src    : Word
  dst    : Word
  w      : Half
  h      : Half
  tw     : Half
  th     : Half
  source : Memory
  orient : Orient
  raced  : Bool
  deriving DecidableEq, Repr

/-- The model's fault record, a set drawn from three faults (10_state.md R42). -/
structure FaultRecord where
  uninitRead : Bool
  hostRace   : Bool
  badAccess  : Bool
  deriving DecidableEq, Repr

/-- The width of a host access (20_memory.md R64). -/
inductive Width where
  | byte
  | half
  | word
  deriving DecidableEq, Repr

/-- One host access at a host bus address. A narrow write moves the low bits of `value`. -/
inductive Access where
  | read (addr : Nat) (width : Width)
  | write (addr : Nat) (width : Width) (value : Word)
  deriving DecidableEq, Repr

/-- What a bus address names: an offset of the register window, an offset from `FMEM_BASE`, or neither (20_memory.md R60, R65). -/
inductive Space where
  | register (offset : Nat)
  | frame (offset : Nat)
  | outside
  deriving DecidableEq, Repr

/-- The registers of the register block (10_state.md section 2); `reserved` stands for the slots 0x30 to 0xFC (R37). -/
inductive Reg where
  | id
  | ctrl
  | status
  | cmd
  | srcBase
  | dstBase
  | srcDim
  | dstDim
  | orientDim
  | orientIndex
  | orientData
  | cmdCount
  | reserved
  deriving DecidableEq, Repr

/-- What can happen next, besides the engine's own completion step (log 2). -/
inductive Event where
  /-- One host access (10_state.md R20). -/
  | host (a : Access)
  /-- The engine's turn: it takes the completion step if a command runs (40_command_common.md R100). -/
  | engine
  /-- The host's `WAIT`: it reads STATUS until BUSY = 0 (30_encoding.md R87). -/
  | wait
  /-- The platform asserts the hard reset (70_reset_and_hazards.md R340). -/
  | assertReset
  /-- The platform releases the hard reset. -/
  | releaseReset
  /-- A power cycle: a hard reset after which frame memory holds no value (60_exceptions.md R315). -/
  | powerCycle
  deriving DecidableEq, Repr

/-- What the last host access answered on the bus (log 14). -/
inductive Reply where
  /-- No access yet. -/
  | none
  /-- A read answered this value. -/
  | data (value : Word)
  /-- A write was taken (or ignored, where a rule says the register ignores it). -/
  | done
  /-- The access was refused with BAD_ACCESS (10_state.md R38). -/
  | refused
  deriving DecidableEq, Repr

/-- Why a run can stop with a fault. No step of the RFC does (93_implementation_defined.md §3: "No behaviour of the RFC is
`stuck`"); the three model faults of 10_state.md R42 are recorded in `FaultRecord` and the machine goes on (R308). -/
inductive Fault where
  /-- Raised by the eight meanings when asked for the completion step of a command while no command is latched. `step` never
  asks for it (40_command_common.md R100: the completion step is enabled while BUSY = 1). Safe. -/
  | noCommandLatched
  deriving DecidableEq, Repr

/-- Why a run can be refused. -/
inductive Refusal where
  /-- Raised only by an arm of `exec` whose instruction has no meaning yet; there is none. Safe. -/
  | notModelled (mnemonic : String)
  deriving DecidableEq, Repr

/-- The state of the machine: the register block, the ORIENT buffer, the latched command state, frame memory, the fault
record and the hard reset line (10_state.md R20), the parameters (00_scope.md R6), and three fields of the model's own. -/
@[ext]
structure State where
  /-- The OPEN parameters; no step writes them (R6; log 1). -/
  params       : Params
  /-- CTRL.IRQ_EN (R23). -/
  irqEn        : Bool
  /-- STATUS.DONE (R24). -/
  done         : Bool
  /-- STATUS.ERR (R24). -/
  err          : Bool
  /-- STATUS.START_IGNORED (R24). -/
  startIgnored : Bool
  /-- STATUS.ERR_CODE (R24). -/
  errCode      : BitVec 4
  /-- CMD (R25). -/
  cmd          : Word
  /-- SRC_BASE (R26). -/
  srcBase      : Word
  /-- DST_BASE (R27). -/
  dstBase      : Word
  /-- SRC_DIM (R28). -/
  srcDim       : Word
  /-- DST_DIM (R29). -/
  dstDim       : Word
  /-- ORIENT_INDEX (R31). -/
  orientIndex  : Word
  /-- CMD_COUNT (R34). -/
  cmdCount     : Word
  /-- The ORIENT buffer (R33). -/
  orient       : Orient
  /-- The latched command state, with no value while BUSY = 0 (R36; log 4). -/
  latch        : Option Latch
  /-- Frame memory (20_memory.md R60). -/
  mem          : Memory
  /-- The fault record (R42). -/
  faults       : FaultRecord
  /-- The hard reset is asserted (70_reset_and_hazards.md R340). -/
  hardReset    : Bool
  /-- The model's own: what happens next, oldest first (log 2). -/
  agenda       : List Event
  /-- The model's own: the answer to the last host access (log 14). -/
  reply        : Reply
  /-- The model's own: how many free values have been taken (log 6). -/
  draws        : Nat
  deriving DecidableEq, Repr

/-- The ORIENT buffer after reset: OV, OW, OH are 0; OG has no value, held as no entries (R33, R341; log 18). -/
def Orient.invalid : Orient := ⟨false, 0, 0, []⟩

/-- An empty fault record (R42). -/
def FaultRecord.empty : FaultRecord := ⟨false, false, false⟩

/-- The state right after power-on and reset of an RFC with parameters `p`, hard reset released (70_reset_and_hazards.md
R341, R343). -/
def State.resetOf (p : Params) : State where
  params := p
  irqEn := false
  done := false
  err := false
  startIgnored := false
  errCode := 0
  cmd := 0
  srcBase := 0
  dstBase := 0
  srcDim := 0
  dstDim := 0
  orientIndex := 0
  cmdCount := 0
  orient := Orient.invalid
  latch := none
  mem := []
  faults := FaultRecord.empty
  hardReset := false
  agenda := []
  reply := .none
  draws := 0

/-- The machine right after reset, with the spec's own test instance as its parameters (95_test_vectors.md §0; log 1). -/
def State.reset : State := State.resetOf Params.reference

end Sys2Proof.Machine
end

