-- ==== Sys2Proof/Machine/Flags.lean ====
section
/-! DEFINITION. The flags of the RFC: the STATUS word and its bits, the CTRL word, the error codes and the interrupt line
(10_state.md R23, R24, R39, R41; 30_encoding.md R86; 60_exceptions.md R300, R305). -/

namespace Sys2Proof.Machine

/-- One bit as a word at place 0. -/
def bitWord (b : Bool) : Word := (BitVec.ofBool b).setWidth 32

/-- The cause codes of 60_exceptions.md R300. -/
def CmdError.code : CmdError → BitVec 4
  | .illegalCmd => 1
  | .badDim => 2
  | .badRatio => 3
  | .range => 4
  | .overlap => 5
  | .noOrient => 6

/-- STATUS.BUSY (10_state.md R24): a command is latched (R36; log 4). -/
def State.busy (s : State) : Bool := s.latch.isSome

/-- The STATUS word: BUSY, DONE, ERR, ORIENT_VALID, START_IGNORED at bits 0 to 4, ERR_CODE at 11:8, all others 0
(10_state.md R24, 30_encoding.md R86). -/
def State.statusWord (s : State) : Word :=
  bitWord s.busy ||| bitWord s.done <<< 1 ||| bitWord s.err <<< 2 ||| bitWord s.orient.valid <<< 3 |||
    bitWord s.startIgnored <<< 4 ||| s.errCode.setWidth 32 <<< 8

/-- The CTRL word as it reads: IRQ_EN at bit 2, START and SOFT_RESET read as 0 (10_state.md R23). -/
def State.ctrlWord (s : State) : Word := bitWord s.irqEn <<< 2

/-- The interrupt line: IRQ_EN ∧ DONE (10_state.md R41, 60_exceptions.md R305). -/
def State.irq (s : State) : Bool := s.irqEn && s.done

/-- START acceptance: DONE, ERR and ERR_CODE become 0 (40_command_common.md R100). -/
def State.clearCompletion (s : State) : State :=
  { s with done := false, err := false, errCode := 0 }

/-- A host write of `v` to STATUS: a 1 clears DONE, ERR (with ERR_CODE) or START_IGNORED; the other bits ignore it
(10_state.md R24, 60_exceptions.md R307). -/
def State.writeStatus (v : Word) (s : State) : State :=
  { s with
    done := s.done && !v.getLsbD 1
    err := s.err && !v.getLsbD 2
    errCode := if v.getLsbD 2 then 0 else s.errCode
    startIgnored := s.startIgnored && !v.getLsbD 4 }

/-- A START while BUSY = 1 (10_state.md R23, 70_reset_and_hazards.md R350). -/
def State.ignoreStart (s : State) : State :=
  { s with startIgnored := true }

end Sys2Proof.Machine
end

