-- ==== Sys2Proof/WellFormed.lean ====
section
/-! DEFINITION. Which terms of the syntax are well formed. A command word has no operand fields (30_encoding.md R80), so every
`Instr` is well formed; the operands a script writes must fit the registers they go to (R82, R88). -/

namespace Sys2Proof

/-- Every instruction is well formed: the word has no field that a constructor could fill wrongly (R80, R85). -/
def Instr.wellFormed : Instr → Bool
  | .gblur | .sobel | .nms | .thresh | .hyst | .htone | .fsdith | .boxds => true

/-- Both bases fit 32 bits and all four dimensions fit 16 bits (30_encoding.md R82). Whether the values are LEGAL operands
is the hardware's own check (40_command_common.md R102), not this one. -/
def Command.wellFormed (c : Command) : Bool :=
  c.op.wellFormed && decide (c.src < 2 ^ 32) && decide (c.dst < 2 ^ 32) && decide (c.w < 2 ^ 16) &&
    decide (c.h < 2 ^ 16) && decide (c.tw < 2 ^ 16) && decide (c.th < 2 ^ 16)

end Sys2Proof
end

