-- ==== Sys2Proof/Decode.lean ====
section
/-! DEFINITION. The decoder, total on any word and on any bytes, which rejects by name; after it the encoder
(30_encoding.md R80, R81, R84, R85). -/

namespace Sys2Proof

/-- Why a word or byte string is no command. The hardware reports the first two alike, as ILLEGAL_CMD (30_encoding.md R84). -/
inductive DecodeError where
  /-- OPCODE is 0x0 or in 0x9 to 0xF. -/
  | illegalOpcode
  /-- RSVD ≠ 0. -/
  | reservedBits
  /-- Fewer than four bytes: no command word (R85: every command word is 32 bits). -/
  | tooShort
  deriving DecidableEq, Repr

/-- OPCODE, bits 3:0 (R80). -/
def opcodeField (w : Word) : BitVec 4 := w.extractLsb' 0 4

/-- RSVD, bits 31:4 (R80). -/
def rsvdField (w : Word) : BitVec 28 := w.extractLsb' 4 28

/-- The opcode assignment of R81. -/
def instrOfOpcode (op : BitVec 4) : Option Instr :=
  match op.toNat with
  | 0x1 => some .gblur
  | 0x2 => some .sobel
  | 0x3 => some .nms
  | 0x4 => some .thresh
  | 0x5 => some .hyst
  | 0x6 => some .htone
  | 0x7 => some .fsdith
  | 0x8 => some .boxds
  | _ => none

/-- The command a word stands for, or why it is illegal (R81, R84). -/
def decodeWord (w : Word) : Except DecodeError Instr :=
  if rsvdField w = 0 then
    match instrOfOpcode (opcodeField w) with
    | some i => .ok i
    | none => .error .illegalOpcode
  else .error .reservedBits

/-- A word from its four bytes, least significant first (20_memory.md R62: the little-endian rule maps a register value
onto the bus). -/
def wordOfBytes (b0 b1 b2 b3 : Byte) : Word := b3 ++ b2 ++ b1 ++ b0

/-- Decode the command word at the head of a byte string, and give the bytes after it. -/
def decode : List Byte → Except DecodeError (Instr × List Byte)
  | b0 :: b1 :: b2 :: b3 :: rest =>
    match decodeWord (wordOfBytes b0 b1 b2 b3) with
    | .ok i => .ok (i, rest)
    | .error e => .error e
  | _ => .error .tooShort

/-- The command a legal word stands for, none for an illegal word. -/
def commandOf? (w : Word) : Option Instr :=
  match decodeWord w with
  | .ok i => some i
  | .error _ => none

/-- OPCODE of each command (R81). -/
def opcodeOf : Instr → BitVec 4
  | .gblur => 0x1
  | .sobel => 0x2
  | .nms => 0x3
  | .thresh => 0x4
  | .hyst => 0x5
  | .htone => 0x6
  | .fsdith => 0x7
  | .boxds => 0x8

/-- The command word: RSVD = 0 above OPCODE (R80). -/
def encode (i : Instr) : Word := (0 : BitVec 28) ++ opcodeOf i

/-- The four bytes of a word, least significant first. -/
def bytesOfWord (w : Word) : List Byte :=
  [w.extractLsb' 0 8, w.extractLsb' 8 8, w.extractLsb' 16 8, w.extractLsb' 24 8]

/-- The command word as it crosses the bus. -/
def encodeBytes (i : Instr) : List Byte := bytesOfWord (encode i)

/-- The command word whose low `nbits` bits are `w`; the bits above are 0. -/
def tableWord (nbits w : Nat) : Word := BitVec.ofNat 32 (w % 2 ^ nbits)

/-- The instruction the decoder reads from a word numbered as spec/opcode_table.json numbers it: laid out as its four
bytes, given to `decode`. (Log 22: every row has 32 bits.) -/
def decodeTableWord (nbits w : Nat) : Option Instr :=
  match decode (bytesOfWord (tableWord nbits w)) with
  | .ok (i, _) => some i
  | .error _ => none

end Sys2Proof
end

