-- ==== Sys2Proof/Machine/Memory.lean ====
section
/-! DEFINITION. Frame memory: reading, writing and cutting out a region (20_memory.md R61, R64, R67), its canonical form, and the
byte order of words (R62). -/

namespace Sys2Proof.Machine

/-- What an offset that nothing has written holds: no value (20_memory.md R67; log 7). -/
def Memory.unlisted : Option Byte := none

/-- `MemRead(a, 1)` (00_scope.md R12): the last byte written at `a`, or no value (20_memory.md R61, R67). -/
def Memory.read : Memory → Nat → Option Byte
  | [], _ => Memory.unlisted
  | (x, v) :: m, a => if a = x then some v else Memory.read m a

/-- `MemWrite(a, 1, b)` (00_scope.md R12). -/
def Memory.write : Memory → Nat → Byte → Memory
  | [], a, b => [(a, b)]
  | (x, v) :: m, a, b =>
    if a < x then (a, b) :: (x, v) :: m
    else if a = x then (a, b) :: m
    else (x, v) :: Memory.write m a b

/-- Writes at `a`, `a + 1`, ...: each offset once, and an entry `none` leaves its byte as it was. -/
def Memory.store : Memory → Nat → List (Option Byte) → Memory
  | m, _, [] => m
  | m, a, none :: bs => Memory.store m (a + 1) bs
  | m, a, some b :: bs => Memory.store (Memory.write m a b) (a + 1) bs

/-- Writes every byte of a block that starts at `a`. -/
def Memory.storeBytes (m : Memory) (a : Nat) (bs : List Byte) : Memory :=
  Memory.store m a (bs.map some)

/-- The bytes of the region [a, a + n), as they stand (40_command_common.md R103). -/
def Memory.slice (m : Memory) (a n : Nat) : Memory :=
  m.filter fun c => decide (a ≤ c.1) && decide (c.1 < a + n)

/-- The canonical form: offsets strictly rising. (An unlisted offset holds no value, so no entry can equal it.) -/
abbrev Memory.wf (m : Memory) : Prop := List.Pairwise (fun c d => c.1 < d.1) m

/-- Every listed offset lies below `n`. -/
abbrev Memory.below (m : Memory) (n : Nat) : Prop := ∀ c ∈ m, c.1 < n

/-- The low `n` bytes of a word, least significant first (20_memory.md R62). -/
def wordBytes (v : Word) (n : Nat) : List Byte :=
  (List.range n).map fun k => v.extractLsb' (8 * k) 8

/-- A word from its bytes, least significant first, zero above them (20_memory.md R62). -/
def wordFromBytes (bs : List Byte) : Word :=
  bs.foldr (fun b acc => acc <<< 8 ||| b.setWidth 32) 0

/-- The bytes an access moves (20_memory.md R64). -/
def Width.bytes : Width → Nat
  | .byte => 1
  | .half => 2
  | .word => 4

end Sys2Proof.Machine
end

