-- ==== Sys2Proof/Machine/Operands.lean ====
section
/-! DEFINITION. The operands of a command, assembled from the latched state (30_encoding.md R82), its two regions
(40_command_common.md R101), the six checks (R102), and the pixels it reads and writes (R103, R104; 00_scope.md R10, R11). -/

namespace Sys2Proof.Machine

/-- A plane as the rules write it: the sample at row r, column c (00_scope.md R10). -/
abbrev Plane := Nat → Nat → Nat

/-- SRC_DIM[15:0] or DST_DIM[15:0] (10_state.md R28, R29). -/
def lowHalf (v : Word) : Half := v.extractLsb' 0 16

/-- SRC_DIM[31:16] or DST_DIM[31:16] (10_state.md R28, R29). -/
def highHalf (v : Word) : Half := v.extractLsb' 16 16

/-- `Bs` (30_encoding.md R82). -/
def Latch.srcBase (l : Latch) : Nat := l.src.toNat

/-- `Bd` (30_encoding.md R82). -/
def Latch.dstBase (l : Latch) : Nat := l.dst.toNat

/-- `W` (30_encoding.md R82). -/
def Latch.width (l : Latch) : Nat := l.w.toNat

/-- `H` (30_encoding.md R82). -/
def Latch.height (l : Latch) : Nat := l.h.toNat

/-- `TW` (30_encoding.md R82). -/
def Latch.targetWidth (l : Latch) : Nat := l.tw.toNat

/-- `TH` (30_encoding.md R82). -/
def Latch.targetHeight (l : Latch) : Nat := l.th.toNat

/-- The command a latched word stands for, none when the word is illegal (30_encoding.md R84). -/
def Latch.command? (l : Latch) : Option Instr := commandOf? l.cmd

/-- The size of the source region, W·H (40_command_common.md R101). -/
def Latch.srcSize (l : Latch) : Nat := l.width * l.height

/-- `Wd` (40_command_common.md R101). -/
def destWidth (i : Instr) (l : Latch) : Nat :=
  match i with
  | .gblur | .sobel | .nms | .thresh | .hyst | .fsdith => l.width
  | .htone => 2 * l.width
  | .boxds => l.targetWidth

/-- `Hd` (40_command_common.md R101). -/
def destHeight (i : Instr) (l : Latch) : Nat :=
  match i with
  | .gblur | .sobel | .nms | .thresh | .hyst | .fsdith => l.height
  | .htone => 2 * l.height
  | .boxds => l.targetHeight

/-- `Nd` = Wd·Hd (40_command_common.md R101). -/
def destSize (i : Instr) (l : Latch) : Nat := destWidth i l * destHeight i l

/-- `Nd` of the running command; an illegal word has no destination shape (log 11). -/
def Latch.dstSize (l : Latch) : Nat :=
  match l.command? with
  | some i => destSize i l
  | none => 0

/-- Offset `a` lies in the source region of the running command (40_command_common.md R101). -/
def Latch.inSource (l : Latch) (a : Nat) : Bool :=
  decide (l.srcBase ≤ a) && decide (a < l.srcBase + l.srcSize)

/-- Offset `a` lies in the destination region of the running command (40_command_common.md R101). -/
def Latch.inDest (l : Latch) (a : Nat) : Bool :=
  decide (l.dstBase ≤ a) && decide (a < l.dstBase + l.dstSize)

/-- Check 2 (40_command_common.md R102). -/
def badDim (p : Params) (l : Latch) : Bool :=
  decide (l.width = 0) || decide (l.height = 0) || decide (p.maxW < l.width) || decide (p.maxH < l.height)

/-- Check 3 (40_command_common.md R102, 48_box_downsampler.md R262). -/
def badRatio (i : Instr) (l : Latch) : Bool :=
  decide (i = .boxds) &&
    (decide (l.targetWidth = 0) || decide (l.targetHeight = 0) || decide (l.width % l.targetWidth ≠ 0) ||
      decide (l.height % l.targetHeight ≠ 0))

/-- Check 4 (40_command_common.md R102); the sums never wrap (30_encoding.md R82). -/
def outOfRange (p : Params) (i : Instr) (l : Latch) : Bool :=
  decide (p.fmemBytes < l.srcBase + l.srcSize) || decide (p.fmemBytes < l.dstBase + destSize i l)

/-- Check 5 (40_command_common.md R102). -/
def overlapping (i : Instr) (l : Latch) : Bool :=
  decide (l.srcBase < l.dstBase + destSize i l) && decide (l.dstBase < l.srcBase + l.srcSize) &&
    !(decide (l.srcBase = l.dstBase) && decide (destSize i l = l.srcSize))

/-- Check 6 (40_command_common.md R102), on the snapshot of the ORIENT buffer. -/
def missingOrient (i : Instr) (l : Latch) : Bool :=
  decide (i = .nms) && (!l.orient.valid || decide (l.orient.width ≠ l.w) || decide (l.orient.height ≠ l.h))

/-- Checks 2 to 6 in their order, for command `i`: the first that fails, or none (40_command_common.md R102, 60_exceptions.md
R303). Check 1 is the decoder's. -/
def checkOperands (p : Params) (i : Instr) (l : Latch) : Option CmdError :=
  if badDim p l then some .badDim
  else if badRatio i l then some .badRatio
  else if outOfRange p i l then some .range
  else if overlapping i l then some .overlap
  else if missingOrient i l then some .noOrient
  else none

/-- The outcome of the running command: the first failing check of all six, or none for OK. It is fixed by the latched
values and the snapshot (40_command_common.md R100, R102; 60_exceptions.md R302). -/
def Latch.outcome (p : Params) (l : Latch) : Option CmdError :=
  match l.command? with
  | none => some .illegalCmd
  | some i => checkOperands p i l

/-- (r, c) is an interior pixel of a W×H plane (00_scope.md R10). -/
def isInterior (w h r c : Nat) : Bool :=
  decide (1 ≤ r) && decide (r + 2 ≤ h) && decide (1 ≤ c) && decide (c + 2 ≤ w)

/-- `S(r, c)`: the snapshot byte at Bs + r·W + c (40_command_common.md R104). A byte nobody wrote holds no value: what the
rules compute from it is computed from a free byte (logs 8, 9). -/
def Latch.sample (l : Latch) (draws : Nat) : Plane := fun r c =>
  ((Memory.read l.source (l.srcBase + (r * l.width + c))).getD (Config.freeByte (draws + (r * l.width + c)))).toNat

/-- Some byte of the source plane holds no value (20_memory.md R67, 70_reset_and_hazards.md R346; log 8). -/
def Latch.readsUnwritten (l : Latch) : Bool :=
  (List.range l.srcSize).any fun k => (Memory.read l.source (l.srcBase + k)).isNone

/-- A destination plane Wd×Hd, row-major with stride Wd (40_command_common.md R101, R104), as bytes. -/
def render (wd hd : Nat) (d : Plane) : List Byte :=
  (List.range (wd * hd)).map fun k => BitVec.ofNat 8 (d (k / wd) (k % wd))

/-- `n` free bytes from draw `d` on (93_implementation_defined.md A4, A5). -/
def freeBytes (d n : Nat) : List Byte :=
  (List.range n).map fun k => Config.freeByte (d + k)

end Sys2Proof.Machine
end

