-- ==== Sys2Proof/Machine/Ops.lean ====
section
/-! DEFINITION. The operations that commands, host accesses and resets share: recording a fault, START acceptance, raising a
command error, completing a command, aborting one, and reset (40_command_common.md R100 to R106, 60_exceptions.md R301,
70_reset_and_hazards.md R340 to R344). -/

namespace Sys2Proof.Machine

/-- Record BAD_ACCESS (10_state.md R42); nothing else changes but the bus answer (R38, 60_exceptions.md R308; log 14). -/
def State.refuseAccess (s : State) : State :=
  { s with faults := { s.faults with badAccess := true }, reply := .refused }

/-- The ORIENT buffer as a command latches it: NMS takes a snapshot, no other command does (10_state.md R36; log 20). -/
def snapshotOrient (cmd : Word) (o : Orient) : Orient :=
  if commandOf? cmd = some .nms then o else Orient.invalid

/-- What a START acceptance latches (40_command_common.md R100, R103; 10_state.md R36). -/
def State.latchCommand (s : State) : Latch where
  cmd := s.cmd
  src := s.srcBase
  dst := s.dstBase
  w := lowHalf s.srcDim
  h := highHalf s.srcDim
  tw := lowHalf s.dstDim
  th := highHalf s.dstDim
  source := Memory.slice s.mem s.srcBase.toNat ((lowHalf s.srcDim).toNat * (highHalf s.srcDim).toNat)
  orient := snapshotOrient s.cmd s.orient
  raced := false

/-- The START acceptance step (40_command_common.md R100). -/
def State.acceptStart (s : State) : State :=
  { s.clearCompletion with latch := some s.latchCommand }

/-- The START action of a CTRL write (10_state.md R23): accepted while BUSY = 0, ignored while BUSY = 1. -/
def State.startAction (s : State) : State :=
  if s.busy then s.ignoreStart else s.acceptStart

/-- `raise CmdError(code)` (60_exceptions.md R301): ERR and ERR_CODE are set; no frame memory byte is written and the ORIENT
buffer is unchanged. The RFC's only synchronous exception: it saves no state and transfers no control (R300, R306). -/
def State.raiseCmdError (e : CmdError) (s : State) : State :=
  { s with err := true, errCode := e.code }

/-- The end of every completion step (40_command_common.md R106): BUSY ← 0, DONE ← 1, CMD_COUNT ← CMD_COUNT + 1 mod 2^32; the
latched state has no value again (60_exceptions.md R301). -/
def State.retire (s : State) : State :=
  { s with latch := none, done := true, cmdCount := s.cmdCount + 1 }

/-- A completion step that ends with an error (40_command_common.md R106). -/
def State.failCommand (e : CmdError) (s : State) : State :=
  (s.raiseCmdError e).retire

/-- What the engine writes of a command that passed its checks: the family's bytes; free bytes when the command read a byte
nobody wrote (20_memory.md R67) or a HOST_RACE hit it (R71; log 10). -/
def destBytes (i : Instr) (l : Latch) (draws : Nat) (bytes : List Byte) : List Byte :=
  if l.readsUnwritten || l.raced then freeBytes (draws + l.srcSize) (destSize i l) else bytes

/-- The destination write of a command that passed its checks (40_command_common.md R105, R106), the ORIENT update `grad` gives,
and UNINIT_READ where the source plane holds a byte nobody wrote (20_memory.md R67; log 8). -/
def State.deliver (i : Instr) (l : Latch) (bytes : List Byte) (orient : Orient) (s : State) : State :=
  { s with
    mem := Memory.storeBytes s.mem l.dstBase (destBytes i l s.draws bytes)
    orient := orient
    faults := { s.faults with uninitRead := s.faults.uninitRead || l.readsUnwritten }
    draws := if l.readsUnwritten || l.raced then s.draws + l.srcSize + destSize i l else s.draws }

/-- The completion step of command `i` (40_command_common.md R106). `dest` is the family's rule: the destination bytes, row by
row, as a function of the parameters, the latched operands and the plane S. `grad` is what becomes of the ORIENT
buffer. -/
def complete (i : Instr) (dest : Params → Latch → Plane → List Byte) (grad : Latch → Plane → Orient → Orient)
    (s : State) : Host.Outcome State Fault Refusal :=
  match s.latch with
  | none => .fault .noCommandLatched
  | some l =>
    match checkOperands s.params i l with
    | some e => .next (s.failCommand e)
    | none =>
      .next (s.deliver i l (dest s.params l (l.sample s.draws)) (grad l (l.sample s.draws) s.orient)).retire

/-- No command but SOBEL writes the ORIENT buffer (10_state.md R33). -/
def keepOrient (_ : Latch) (_ : Plane) (o : Orient) : Orient := o

/-- How much of the destination region lies in frame memory (log 12). -/
def abortSize (p : Params) (l : Latch) : Nat := min l.dstSize (p.fmemBytes - l.dstBase)

/-- Each destination byte of an aborted command: its old content or a free byte, chosen freely for each byte
(70_reset_and_hazards.md R342); after a HOST_RACE a free byte (20_memory.md R71; log 12). -/
def abortBytes (l : Latch) (draws n : Nat) : List (Option Byte) :=
  (List.range n).map fun k =>
    if l.raced || Config.freeBit (draws + k) then some (Config.freeByte (draws + k)) else none

/-- Abort the running command, if one runs (70_reset_and_hazards.md R342). -/
def State.abort (s : State) : State :=
  match s.latch with
  | none => s
  | some l =>
    { s with
      mem := Memory.store s.mem l.dstBase (abortBytes l s.draws (abortSize s.params l))
      draws := s.draws + abortSize s.params l
      latch := none }

/-- Every register and internal item at its value of 70_reset_and_hazards.md R341; frame memory and the fault record stay. -/
def State.clearRegisters (s : State) : State :=
  { s with
    irqEn := false
    done := false
    err := false
    startIgnored := false
    errCode := 0
    cmd := 0
    srcBase := 0
    dstBase := 0
    srcDim := 0
    dstDim := 0
    orientIndex := 0
    cmdCount := 0
    orient := Orient.invalid
    latch := none }

/-- The reset of 70_reset_and_hazards.md R340, which the hard and the soft reset share. -/
def State.resetBlock (s : State) : State := s.abort.clearRegisters

/-- The hard reset is asserted (70_reset_and_hazards.md R340; log 15). -/
def State.assertReset (s : State) : State := { s.resetBlock with hardReset := true }

/-- The hard reset is released (70_reset_and_hazards.md R340; log 15). -/
def State.releaseReset (s : State) : State := { s with hardReset := false }

/-- A power cycle: a hard reset, after which frame memory holds no value (60_exceptions.md R315, 20_memory.md R67; log 15). -/
def State.powerCycle (s : State) : State := { s.resetBlock with mem := [], hardReset := false }

end Sys2Proof.Machine
end

