-- ==== Sys2Proof/Machine/Bus.lean ====
section
/-! DEFINITION. The host's accesses: which space an address names, the register block (10_state.md R22 to R38), and frame
memory (20_memory.md R60 to R64, R71). -/

namespace Sys2Proof.Machine

/-- Which space a host bus address names (20_memory.md R60, R65; log 13). -/
def locate (p : Params) (addr : Nat) : Space :=
  if p.regBase ≤ addr ∧ addr < p.regBase + Config.regBytes then .register (addr - p.regBase)
  else if p.fmemBase ≤ addr then .frame (addr - p.fmemBase)
  else .outside

/-- The register at a word offset of the window (10_state.md section 2, R37). -/
def regAt (offset : Nat) : Reg :=
  match offset with
  | 0x00 => .id
  | 0x04 => .ctrl
  | 0x08 => .status
  | 0x0C => .cmd
  | 0x10 => .srcBase
  | 0x14 => .dstBase
  | 0x18 => .srcDim
  | 0x1C => .dstDim
  | 0x20 => .orientDim
  | 0x24 => .orientIndex
  | 0x28 => .orientData
  | 0x2C => .cmdCount
  | _ => .reserved

/-- The offset of each register (10_state.md section 2); the first reserved slot for `reserved`. -/
def Reg.offset : Reg → Nat
  | .id => 0x00
  | .ctrl => 0x04
  | .status => 0x08
  | .cmd => 0x0C
  | .srcBase => 0x10
  | .dstBase => 0x14
  | .srcDim => 0x18
  | .dstDim => 0x1C
  | .orientDim => 0x20
  | .orientIndex => 0x24
  | .orientData => 0x28
  | .cmdCount => 0x2C
  | .reserved => 0x30

/-- ORIENT_DIM: OW at [15:0], OH at [31:16], 0 while OV = 0 (10_state.md R30). -/
def Orient.dimWord (o : Orient) : Word := if o.valid then o.height ++ o.width else 0

/-- {gy[15:0], gx[15:0]} (10_state.md R32). -/
def Grad.word (g : Grad) : Word := BitVec.ofInt 16 g.gy ++ BitVec.ofInt 16 g.gx

/-- The ORIENT entry a word index selects: OG[index] while OV = 1 and index < OW·OH, else 0 (10_state.md R32). -/
def Orient.dataWord (o : Orient) (index : Word) : Word :=
  if o.valid ∧ index.toNat < o.width.toNat * o.height.toNat then (o.pairs.getD index.toNat ⟨0, 0⟩).word else 0

/-- STATUS.BUSY = 1 and the running command is SOBEL: then ORIENT_DATA is unspecified (10_state.md R32). -/
def State.sobelRunning (s : State) : Bool :=
  match s.latch with
  | some l => decide (l.command? = some .sobel)
  | none => false

/-- What a register reads (10_state.md R22 to R37). -/
def State.regValue (s : State) : Reg → Word
  | .id => Config.idValue
  | .ctrl => s.ctrlWord
  | .status => s.statusWord
  | .cmd => s.cmd
  | .srcBase => s.srcBase
  | .dstBase => s.dstBase
  | .srcDim => s.srcDim
  | .dstDim => s.dstDim
  | .orientDim => s.orient.dimWord
  | .orientIndex => s.orientIndex
  | .orientData => if s.sobelRunning then Config.freeWord s.draws else s.orient.dataWord s.orientIndex
  | .cmdCount => s.cmdCount
  | .reserved => 0

/-- How many free values a register read takes: one for ORIENT_DATA while a SOBEL runs (log 6). -/
def State.regDraws (s : State) (r : Reg) : Nat :=
  if r = .orientData ∧ s.sobelRunning then 1 else 0

/-- A host read of a register: it answers the value and has no side effect (10_state.md R38). -/
def State.readReg (r : Reg) (s : State) : State :=
  { s with reply := .data (s.regValue r), draws := s.draws + s.regDraws r }

/-- A host write of `v` to CTRL: the soft reset alone, or IRQ_EN and then the START action (10_state.md R23). -/
def State.writeCtrl (v : Word) (s : State) : State :=
  if v.getLsbD 1 then s.resetBlock
  else if v.getLsbD 0 then { s with irqEn := v.getLsbD 2 }.startAction
  else { s with irqEn := v.getLsbD 2 }

/-- What a host write of `v` does to a register; the read-only registers and the reserved slots ignore it (10_state.md R22
to R37). -/
def State.setReg (r : Reg) (v : Word) (s : State) : State :=
  match r with
  | .ctrl => s.writeCtrl v
  | .status => s.writeStatus v
  | .cmd => { s with cmd := v }
  | .srcBase => { s with srcBase := v }
  | .dstBase => { s with dstBase := v }
  | .srcDim => { s with srcDim := v }
  | .dstDim => { s with dstDim := v }
  | .orientIndex => { s with orientIndex := v }
  | .id | .orientDim | .orientData | .cmdCount | .reserved => s

/-- A host write to a register. -/
def State.writeReg (r : Reg) (v : Word) (s : State) : State :=
  { s.setReg r v with reply := .done }

/-- Offset `a` is a destination byte of the running command (20_memory.md R71). -/
def State.destBusy (s : State) (a : Nat) : Bool :=
  match s.latch with
  | some l => l.inDest a
  | none => false

/-- Offset `a` lies in the source or the destination region of the running command (20_memory.md R71). -/
def State.regionBusy (s : State) (a : Nat) : Bool :=
  match s.latch with
  | some l => l.inSource a || l.inDest a
  | none => false

/-- The byte a host read of offset `a` gives: a free byte for a destination byte of the running command (20_memory.md R71),
else the byte's value (R61), and a free byte where nothing was ever written (log 7). -/
def State.hostByte (s : State) (a k : Nat) : Byte :=
  if s.destBusy a then Config.freeByte (s.draws + k)
  else (Memory.read s.mem a).getD (Config.freeByte (s.draws + k))

/-- A host read of `n` bytes at offset `off`, little-endian (20_memory.md R62). -/
def State.readFrame (off n : Nat) (s : State) : State :=
  { s with
    reply := .data (wordFromBytes ((List.range n).map fun k => s.hostByte (off + k) k))
    draws := s.draws + n }

/-- Some byte of the access at `off` lies in a region of the running command: a host write there is a HOST_RACE (20_memory.md
R71, 70_reset_and_hazards.md R349). -/
def State.racesAt (s : State) (off n : Nat) : Bool :=
  (List.range n).any fun k => s.regionBusy (off + k)

/-- The bytes a host write leaves: the written ones, and free bytes inside the regions of the running command (20_memory.md
R62, R71; log 10). -/
def State.writtenBytes (s : State) (off n : Nat) (v : Word) : List Byte :=
  (List.range n).map fun k =>
    if s.regionBusy (off + k) then Config.freeByte (s.draws + k) else v.extractLsb' (8 * k) 8

/-- A HOST_RACE marks the running command (20_memory.md R71; log 10). -/
def markRaced (race : Bool) : Option Latch → Option Latch
  | some l => some { l with raced := l.raced || race }
  | none => none

/-- A host write of the low `n` bytes of `v` at offset `off` (20_memory.md R61, R62, R71). -/
def State.writeFrame (off n : Nat) (v : Word) (s : State) : State :=
  { s with
    mem := Memory.storeBytes s.mem off (s.writtenBytes off n v)
    latch := markRaced (s.racesAt off n) s.latch
    faults := { s.faults with hostRace := s.faults.hostRace || s.racesAt off n }
    reply := .done
    draws := if s.racesAt off n then s.draws + n else s.draws }

/-- A register access must be 32 bits wide at a multiple of 4 (10_state.md R38). -/
def regAccessOk (offset : Nat) (w : Width) : Bool := decide (w = .word) && decide (offset % 4 = 0)

/-- A frame memory access must be aligned to its own size (20_memory.md R63) and lie wholly in frame memory (R60; log 13). -/
def frameAccessOk (p : Params) (offset : Nat) (w : Width) : Bool :=
  decide (offset % w.bytes = 0) && decide (offset + w.bytes ≤ p.fmemBytes)

/-- One host access (10_state.md R20, R38; 20_memory.md R60 to R64). While the hard reset is asserted every access is refused
(70_reset_and_hazards.md R345). -/
def hostAccess (a : Access) (s : State) : State :=
  if s.hardReset then s.refuseAccess
  else
    match a with
    | .read addr w =>
      match locate s.params addr with
      | .register off => if regAccessOk off w then s.readReg (regAt off) else s.refuseAccess
      | .frame off => if frameAccessOk s.params off w then s.readFrame off w.bytes else s.refuseAccess
      | .outside => s.refuseAccess
    | .write addr w v =>
      match locate s.params addr with
      | .register off => if regAccessOk off w then s.writeReg (regAt off) v else s.refuseAccess
      | .frame off => if frameAccessOk s.params off w then s.writeFrame off w.bytes v else s.refuseAccess
      | .outside => s.refuseAccess

/-- The 32-bit read of a register, as a bus access. -/
def readRegAccess (p : Params) (r : Reg) : Access := .read (p.regBase + r.offset) .word

/-- The 32-bit write of a register, as a bus access. -/
def writeRegAccess (p : Params) (r : Reg) (v : Word) : Access := .write (p.regBase + r.offset) .word v

end Sys2Proof.Machine
end

