-- ==== Sys2Proof/Machine/Blur.lean ====
section
/-! DEFINITION. gaussian_blur_3x3, GBLUR (41_gaussian_blur.md). -/

namespace Sys2Proof.Machine

/-- The weighted 3×3 sum Σ around (r, c), weights 1,2,1/2,4,2/1,2,1 (R121). -/
def blurSum (S : Plane) (r c : Nat) : Nat :=
  1 * S (r - 1) (c - 1) + 2 * S (r - 1) c + 1 * S (r - 1) (c + 1) +
    (2 * S r (c - 1) + 4 * S r c + 2 * S r (c + 1)) +
    (1 * S (r + 1) (c - 1) + 2 * S (r + 1) c + 1 * S (r + 1) (c + 1))

/-- An interior pixel is the truncated mean (R121); a border pixel is copied (R122). -/
def blurPixel (w h : Nat) (S : Plane) : Plane := fun r c =>
  if isInterior w h r c then blurSum S r c / 16 else S r c

/-- GBLUR's destination plane (R121, R122). -/
def blurDest (_ : Params) (l : Latch) (S : Plane) : List Byte :=
  render l.width l.height (blurPixel l.width l.height S)

/-- GBLUR (R120 to R124). -/
def execGblur (s : State) : Host.Outcome State Fault Refusal :=
  complete .gblur blurDest keepOrient s

end Sys2Proof.Machine
end

