-- ==== Sys2Proof/Machine/Float32.lean ====
section
/-! DEFINITION. The binary32 arithmetic of the error field (00_scope.md R9), on exact values. Every finite binary32 value is an
integer multiple of 2^-149, the smallest subnormal, so a value is held as that integer; gradual underflow needs no case
of its own. Overflow, infinities and NaN do not arise (60_exceptions.md R304; log 17). -/

namespace Sys2Proof.Machine

/-- A binary32 value, as a count of units of 2^-149 (log 17). -/
structure F32 where
  units : Int
  deriving DecidableEq, Repr

/-- Units of 2^-149 in 1. -/
def F32.one : Nat := Nat.pow 2 149

/-- `n / 2^sh` to the nearest integer, a tie to the even one. -/
def roundShift (n sh : Nat) : Nat :=
  let q := n / Nat.pow 2 sh
  let r := n % Nat.pow 2 sh
  if 2 * r < Nat.pow 2 sh then q
  else if Nat.pow 2 sh < 2 * r then q + 1
  else if q % 2 = 0 then q
  else q + 1

/-- The place of the last bit kept of the magnitude `n`·2^-(149+j): 24 significant bits, and nothing below 2^-149. -/
def roundPlace (n j : Nat) : Nat := max j (n.log2 - 23)

/-- The magnitude `n`·2^-(149+j) rounded to binary32, in units of 2^-149. -/
def roundMagnitude (n j : Nat) : Nat :=
  roundShift n (roundPlace n j) * Nat.pow 2 (roundPlace n j - j)

/-- `fl32(x)` for the real x = `n`·2^-(149+j): the nearest binary32 value, ties to even, with subnormal values
(00_scope.md R9). -/
def fl32 (n : Int) (j : Nat) : F32 := ⟨n.sign * (roundMagnitude n.natAbs j : Int)⟩

/-- `a ⊕ b` = fl32(a + b) (00_scope.md R9). -/
def F32.add (a b : F32) : F32 := fl32 (a.units + b.units) 0

/-- `a ⊖ b` = fl32(a − b) (00_scope.md R9). -/
def F32.sub (a b : F32) : F32 := fl32 (a.units - b.units) 0

/-- `a ⊗ b` = fl32(a × b) (00_scope.md R9). -/
def F32.mul (a b : F32) : F32 := fl32 (a.units * b.units) 149

/-- A sample as a binary32 value, exact (47_floyd_steinberg.md R241). -/
def F32.ofNat (k : Nat) : F32 := ⟨((k * F32.one : Nat) : Int)⟩

/-- The weight k/16, an exact binary32 value (47_floyd_steinberg.md R241). -/
def F32.sixteenths (k : Nat) : F32 := ⟨((k * Nat.pow 2 145 : Nat) : Int)⟩

end Sys2Proof.Machine
end

