-- ==== Sys2Proof/Machine/Dither.lean ====
section
/-! DEFINITION. floyd_steinberg_diffuser, FSDITH (47_floyd_steinberg.md). -/

namespace Sys2Proof.Machine

/-- The error field F: W·H binary32 values, alive only inside one FSDITH (10_state.md R35; log 5). -/
abbrev ErrorField := List F32

/-- F[i] ← S(i / W, i mod W) (R241). -/
def errorField (w h : Nat) (S : Plane) : ErrorField :=
  (List.range (w * h)).map fun i => F32.ofNat (S (i / w) (i % w))

/-- The nearest level step·k, ties upward, clamped to 0..15 steps, on the exact value; with FS_STEP = 17 it is
17·clamp(floor((2v + 17)/34), 0, 15) (R242). The levels of another FS_STEP are the model's choice (log 25). -/
def quant (step : Nat) (v : F32) : Nat :=
  step * (min 15 (max 0 ((2 * v.units + ((step * F32.one : Nat) : Int)) / ((2 * step * F32.one : Nat) : Int)))).toNat

/-- F[n] ← F[n] ⊕ (e ⊗ w) (R241). -/
def spreadTo (n : Nat) (e wt : F32) (F : ErrorField) : ErrorField :=
  F.modify n fun x => F32.add x (F32.mul e wt)

/-- The share of e for the neighbour at (r + dr, c + dc), skipped when it lies outside the plane (R241, R244). -/
def spread (w h : Nat) (r c : Int) (e wt : F32) (F : ErrorField) : ErrorField :=
  if 0 ≤ r ∧ r < h ∧ 0 ≤ c ∧ c < w then spreadTo (r * w + c).toNat e wt F else F

/-- The four updates of pixel (r, c), in the order of R241: right 7/16, bottom-left 3/16, bottom 5/16, bottom-right 1/16. -/
def diffuse (w h r c : Nat) (e : F32) (F : ErrorField) : ErrorField :=
  let F := spread w h r (c + 1) e (F32.sixteenths 7) F
  let F := spread w h (r + 1) (c - 1) e (F32.sixteenths 3) F
  let F := spread w h (r + 1) c e (F32.sixteenths 5) F
  spread w h (r + 1) (c + 1) e (F32.sixteenths 1) F

/-- One visited pixel: the field value, the level and the signed error e = v ⊖ q (R241). -/
structure Visit where
  value : F32
  level : Nat
  error : F32
  deriving DecidableEq, Repr

/-- The visit of a cell that holds `v` (R241). -/
def visit (step : Nat) (v : F32) : Visit := ⟨v, quant step v, F32.sub v (F32.ofNat (quant step v))⟩

/-- `n` visits in row-major order from pixel `i` on (R241). -/
def ditherFrom (step w h : Nat) : Nat → Nat → ErrorField → List Visit
  | 0, _, _ => []
  | n + 1, i, F =>
    let x := visit step (F.getD i (F32.ofNat 0))
    x :: ditherFrom step w h n (i + 1) (diffuse w h (i / w) (i % w) x.error F)

/-- The whole pass over a W×H plane (R241). -/
def dither (step w h : Nat) (S : Plane) : List Visit :=
  ditherFrom step w h (w * h) 0 (errorField w h S)

/-- FSDITH's destination plane: the level of each visit (R241). -/
def ditherDest (p : Params) (l : Latch) (S : Plane) : List Byte :=
  (dither p.literals.fsStep l.width l.height S).map fun x => BitVec.ofNat 8 x.level

/-- FSDITH (R240 to R247). -/
def execFsdith (s : State) : Host.Outcome State Fault Refusal :=
  complete .fsdith ditherDest keepOrient s

end Sys2Proof.Machine
end

