-- ==== Sys2Proof/Machine/Downsample.lean ====
section
/-! DEFINITION. box_area_downsampler, BOXDS (48_box_downsampler.md). -/

namespace Sys2Proof.Machine

/-- The sum of the block of height `bh` and width `bw` for destination pixel (i, j) (R261). -/
def blockSum (bh bw : Nat) (S : Plane) (i j : Nat) : Nat :=
  ((List.range bh).map fun a => ((List.range bw).map fun b => S (i * bh + a) (j * bw + b)).sum).sum

/-- The truncated average of a block (R261). -/
def boxPixel (bh bw : Nat) (S : Plane) : Plane := fun i j => blockSum bh bw S i j / (bh * bw)

/-- BOXDS's destination plane, TW×TH, with bh = H / TH and bw = W / TW (R261). -/
def boxDest (_ : Params) (l : Latch) (S : Plane) : List Byte :=
  render l.targetWidth l.targetHeight (boxPixel (l.height / l.targetHeight) (l.width / l.targetWidth) S)

/-- BOXDS (R260 to R264). -/
def execBoxds (s : State) : Host.Outcome State Fault Refusal :=
  complete .boxds boxDest keepOrient s

end Sys2Proof.Machine
end

