-- ==== Sys2Proof/Machine/Gradient.lean ====
section
/-! DEFINITION. sobel_gradient_magnitude_orientation, SOBEL (42_sobel_gradient.md). -/

namespace Sys2Proof.Machine

/-- The two Sobel sums around (r, c), the kernels applied as a correlation (R141). -/
def sobelPair (S : Plane) (r c : Nat) : Grad where
  gx := ((S (r - 1) (c + 1) + 2 * S r (c + 1) + S (r + 1) (c + 1) : Nat) : Int) -
    ((S (r - 1) (c - 1) + 2 * S r (c - 1) + S (r + 1) (c - 1) : Nat) : Int)
  gy := ((S (r + 1) (c - 1) + 2 * S (r + 1) c + S (r + 1) (c + 1) : Nat) : Int) -
    ((S (r - 1) (c - 1) + 2 * S (r - 1) c + S (r - 1) (c + 1) : Nat) : Int)

/-- The ORIENT entry of pixel (r, c): the pair at an interior pixel, (0, 0) on the border (R145, R146). -/
def gradEntry (w h : Nat) (S : Plane) (r c : Nat) : Grad :=
  if isInterior w h r c then sobelPair S r c else ⟨0, 0⟩

/-- Adds to `r` each power of two below 2^bits, from the highest, that keeps its square at most `n`. -/
def isqrtBits : Nat → Nat → Nat → Nat
  | 0, _, r => r
  | b + 1, n, r => isqrtBits b n (if (r + 2 ^ b) * (r + 2 ^ b) ≤ n then r + 2 ^ b else r)

/-- The integer square root: the greatest m with m² ≤ n. -/
def isqrt (n : Nat) : Nat := isqrtBits (n.log2 / 2 + 1) n 0

/-- round(sqrt(n)): the integer m with m² − m < n ≤ m² + m (R142, R143). -/
def roundSqrt (n : Nat) : Nat :=
  if n ≤ isqrt n * isqrt n + isqrt n then isqrt n else isqrt n + 1

/-- gx² + gy², a natural number (R142). -/
def Grad.normSq (g : Grad) : Nat := g.gx.natAbs * g.gx.natAbs + g.gy.natAbs * g.gy.natAbs

/-- min(255, round(sqrt(gx² + gy²))) (R142). -/
def magnitude (g : Grad) : Nat := min 255 (roundSqrt g.normSq)

/-- An interior pixel is the magnitude (R142); a border pixel is 0 (R146). -/
def sobelPixel (w h : Nat) (S : Plane) : Plane := fun r c =>
  if isInterior w h r c then magnitude (sobelPair S r c) else 0

/-- SOBEL's destination plane (R142, R146). -/
def sobelDest (_ : Params) (l : Latch) (S : Plane) : List Byte :=
  render l.width l.height (sobelPixel l.width l.height S)

/-- The ORIENT buffer a SOBEL that ends without error leaves: the new contents replace the old whole (R145). -/
def sobelOrient (l : Latch) (S : Plane) (_ : Orient) : Orient where
  valid := true
  width := l.w
  height := l.h
  pairs := (List.range l.srcSize).map fun k => gradEntry l.width l.height S (k / l.width) (k % l.width)

/-- SOBEL (R140 to R148). -/
def execSobel (s : State) : Host.Outcome State Fault Refusal :=
  complete .sobel sobelDest sobelOrient s

end Sys2Proof.Machine
end

