-- ==== Sys2Proof/Machine/Halftone.lean ====
section
/-! DEFINITION. halftone_5level_dither, HTONE (46_halftone.md). -/

namespace Sys2Proof.Machine

/-- The bucket of a sample for the band width HT_BAND: bands open at the bottom and closed at the top (R222, for 51; the bucket ends
of another band width are the model's choice, log 25). -/
def bucket (band p : Nat) : Fin 5 :=
  if p ≤ band then 0
  else if p ≤ 2 * band then 1
  else if p ≤ 3 * band then 2
  else if p ≤ 4 * band then 3
  else 4

/-- `HT_PATTERN[k]` (R223). -/
def patternOf (t : Patterns) : Fin 5 → Pattern
  | 0 => t.p0
  | 1 => t.p1
  | 2 => t.p2
  | 3 => t.p3
  | 4 => t.p4

/-- The byte of a pattern at row parity `a` and column parity `b`: tl, tr, bl, br (R221). -/
def patternByte (q : Pattern) (a b : Nat) : Byte :=
  if a = 0 then (if b = 0 then q.tl else q.tr) else (if b = 0 then q.bl else q.br)

/-- The destination sample (r, c) lies in the 2×2 block of source pixel (r // 2, c // 2) (R221). -/
def htonePixel (t : Patterns) (band : Nat) (S : Plane) : Plane := fun r c =>
  (patternByte (patternOf t (bucket band (S (r / 2) (c / 2)))) (r % 2) (c % 2)).toNat

/-- HTONE's destination plane, 2W×2H (R221). -/
def htoneDest (p : Params) (l : Latch) (S : Plane) : List Byte :=
  render (2 * l.width) (2 * l.height) (htonePixel p.patterns p.literals.htBand S)

/-- HTONE (R220 to R225). -/
def execHtone (s : State) : Host.Outcome State Fault Refusal :=
  complete .htone htoneDest keepOrient s

end Sys2Proof.Machine
end

