-- ==== Sys2Proof/Machine/Hysteresis.lean ====
section
/-! DEFINITION. hysteresis_connector, HYST (45_hysteresis.md). -/

namespace Sys2Proof.Machine

/-- The eight neighbours of (r, c), row by row (00_scope.md R11). -/
def eightNeighbours (S : Plane) (r c : Nat) : List Nat :=
  [S (r - 1) (c - 1), S (r - 1) c, S (r - 1) (c + 1), S r (c - 1), S r (c + 1),
    S (r + 1) (c - 1), S (r + 1) c, S (r + 1) (c + 1)]

/-- One pass over the pre-hysteresis plane: Strong stays, Weak becomes 255 beside a Strong, the rest is 0 (R201, R203). -/
def connectPixel (S : Plane) (r c : Nat) : Nat :=
  if S r c = 255 then 255
  else if S r c = 1 then
    if (eightNeighbours S r c).any fun p => decide (p = 255) then 255 else 0
  else 0

/-- A border pixel is 0, whatever the source byte is (R202). -/
def hystPixel (w h : Nat) (S : Plane) : Plane := fun r c =>
  if isInterior w h r c then connectPixel S r c else 0

/-- HYST's destination plane (R201, R202). -/
def hystDest (_ : Params) (l : Latch) (S : Plane) : List Byte :=
  render l.width l.height (hystPixel l.width l.height S)

/-- HYST (R200 to R205). -/
def execHyst (s : State) : Host.Outcome State Fault Refusal :=
  complete .hyst hystDest keepOrient s

end Sys2Proof.Machine
end

