-- ==== Sys2Proof/Machine/Suppress.lean ====
section
/-! DEFINITION. non_max_suppressor, NMS (43_non_max_suppression.md). -/

namespace Sys2Proof.Machine

/-- The four sectors of the source (R162). -/
inductive Sector where
  | H
  | D1
  | V
  | D2
  deriving DecidableEq, Repr

/-- The sector of a gradient pair, by the exact integer test (R162). -/
def sector (g : Grad) : Sector :=
  if g.gx = 0 ∧ g.gy = 0 then .H
  else if (g.gx.natAbs + g.gy.natAbs) * (g.gx.natAbs + g.gy.natAbs) < 2 * (g.gx.natAbs * g.gx.natAbs) then .H
  else if (g.gx.natAbs + g.gy.natAbs) * (g.gx.natAbs + g.gy.natAbs) < 2 * (g.gy.natAbs * g.gy.natAbs) then .V
  else if 0 < g.gx * g.gy then .D1
  else .D2

/-- The samples of the two neighbours a sector compares with (R163; the compass is 00_scope.md R11's). -/
def neighbours (S : Plane) (r c : Nat) : Sector → Nat × Nat
  | .H => (S r (c + 1), S r (c - 1))
  | .D1 => (S (r - 1) (c + 1), S (r + 1) (c - 1))
  | .V => (S (r - 1) c, S (r + 1) c)
  | .D2 => (S (r - 1) (c - 1), S (r + 1) (c + 1))

/-- OG[r·W + c] of the snapshot (R161). -/
def Latch.gradAt (l : Latch) (r c : Nat) : Grad := l.orient.pairs.getD (r * l.width + c) ⟨0, 0⟩

/-- The pixel if it is at least both neighbours, else 0 (R161). -/
def keepIfMax (m : Nat) (n : Nat × Nat) : Nat := if n.1 ≤ m ∧ n.2 ≤ m then m else 0

/-- An interior pixel survives if it is a local maximum along its sector (R161); a border pixel is 0 (R165). -/
def nmsPixel (w h : Nat) (g : Nat → Nat → Grad) (S : Plane) : Plane := fun r c =>
  if isInterior w h r c then keepIfMax (S r c) (neighbours S r c (sector (g r c))) else 0

/-- NMS's destination plane (R161, R165). -/
def nmsDest (_ : Params) (l : Latch) (S : Plane) : List Byte :=
  render l.width l.height (nmsPixel l.width l.height l.gradAt S)

/-- NMS (R160 to R167). -/
def execNms (s : State) : Host.Outcome State Fault Refusal :=
  complete .nms nmsDest keepOrient s

end Sys2Proof.Machine
end

