-- ==== Sys2Proof/Machine/Threshold.lean ====
section
/-! DEFINITION. edge_thresholder, THRESH (44_edge_thresholder.md). -/

namespace Sys2Proof.Machine

/-- The PixelClass byte of a sample, NonEdge 0, Weak 1 or Strong 255, for the two thresholds (R181). -/
def pixelClass (low high p : Nat) : Nat :=
  if p ≤ low then 0 else if p ≤ high then 1 else 255

/-- Every pixel is classified by the parameters LOW_T and HIGH_T, border and interior alike (R180, R181). -/
def threshPixel (q : Literals) (S : Plane) : Plane := fun r c => pixelClass q.lowT q.highT (S r c)

/-- THRESH's destination plane (R181). -/
def threshDest (p : Params) (l : Latch) (S : Plane) : List Byte :=
  render l.width l.height (threshPixel p.literals S)

/-- THRESH (R180 to R184). -/
def execThresh (s : State) : Host.Outcome State Fault Refusal :=
  complete .thresh threshDest keepOrient s

end Sys2Proof.Machine
end

