-- ==== Sys2Proof/Machine/Dispatch.lean ====
section
/-! DEFINITION. The completion step of each command, one arm for each row of the opcode table (30_encoding.md R81). -/

namespace Sys2Proof.Machine

def exec (i : Instr) (s : State) : Host.Outcome State Fault Refusal :=
  match i with
  | .gblur => Sys2Proof.Machine.execGblur s
  | .sobel => Sys2Proof.Machine.execSobel s
  | .nms => Sys2Proof.Machine.execNms s
  | .thresh => Sys2Proof.Machine.execThresh s
  | .hyst => Sys2Proof.Machine.execHyst s
  | .htone => Sys2Proof.Machine.execHtone s
  | .fsdith => Sys2Proof.Machine.execFsdith s
  | .boxds => Sys2Proof.Machine.execBoxds s

end Sys2Proof.Machine
end

