-- ==== Sys2Proof/Machine/Script.lean ====
section
/-! DEFINITION. The host command-script syntax and its pseudo-instructions, as the events they stand for (30_encoding.md R87
to R89). -/

namespace Sys2Proof.Machine

/-- A line of a host script (30_encoding.md R87 to R89). -/
inductive ScriptLine where
  | wr (r : Reg) (value : Word)
  | rd (r : Reg)
  | fmw (offset : Nat) (bytes : List Byte)
  | fmr (offset n : Nat)
  | wait
  | op (c : Command)
  | sreset
  | clrst
  deriving DecidableEq, Repr

/-- One 32-bit register write (R87). -/
def writeRegEvent (p : Params) (r : Reg) (v : Word) : Event := .host (writeRegAccess p r v)

/-- The CTRL word of a START: bit 0, and IRQ_EN at bit 2 for the suffix `.I` (R86, R88). -/
def startWord (irq : Bool) : Word := if irq then 0x00000005 else 0x00000001

/-- `(H << 16) | W` (R88). -/
def dimWord (w h : Nat) : Word := BitVec.ofNat 32 h <<< 16 ||| BitVec.ofNat 32 w

/-- The writes a command mnemonic expands to, in their order (R88). -/
def expandCommand (p : Params) (c : Command) : List Event :=
  [writeRegEvent p .srcBase (BitVec.ofNat 32 c.src), writeRegEvent p .dstBase (BitVec.ofNat 32 c.dst),
    writeRegEvent p .srcDim (dimWord c.w c.h)] ++
  (if c.op = .boxds then [writeRegEvent p .dstDim (dimWord c.tw c.th)] else []) ++
  [writeRegEvent p .cmd (encode c.op), writeRegEvent p .ctrl (startWord c.irq)]

/-- Host byte writes at `off`, `off + 1`, ... (R87). -/
def expandWrites (p : Params) : Nat → List Byte → List Event
  | _, [] => []
  | off, b :: bs => .host (.write (p.fmemBase + off) .byte (b.setWidth 32)) :: expandWrites p (off + 1) bs

/-- The bus accesses of a script line (R87 to R89). -/
def expandLine (p : Params) : ScriptLine → List Event
  | .wr r v => [writeRegEvent p r v]
  | .rd r => [.host (readRegAccess p r)]
  | .fmw off bs => expandWrites p off bs
  | .fmr off n => (List.range n).map fun k => .host (.read (p.fmemBase + (off + k)) .byte)
  | .wait => [.wait]
  | .op c => expandCommand p c
  | .sreset => [writeRegEvent p .ctrl 0x00000002]
  | .clrst => [writeRegEvent p .status 0x00000016]

end Sys2Proof.Machine
end

