-- ==== Sys2Proof/Machine/Step.lean ====
section
/-! DEFINITION. One step of the RFC: the next event of the agenda, or the engine's completion step (40_command_common.md R100;
70_reset_and_hazards.md R352; log 2). -/

namespace Sys2Proof.Machine

/-- The engine's turn: the completion step of the running command (40_command_common.md R106), ILLEGAL_CMD for an illegal latched
word (30_encoding.md R84), and nothing while no command runs (60_exceptions.md R315). -/
def engineTurn (s : State) : Host.Outcome State Fault Refusal :=
  match s.latch with
  | none => .next s
  | some l =>
    match decodeWord l.cmd with
    | .ok i => exec i s
    | .error _ => .next (s.failCommand .illegalCmd)

/-- One iteration of `WAIT` (30_encoding.md R87): while BUSY = 1 the host polls and the engine completes; then the host reads
STATUS and goes on (log 16). -/
def waitStep (rest : List Event) (s : State) : Host.Outcome State Fault Refusal :=
  if s.busy then engineTurn s
  else .next (hostAccess (readRegAccess s.params .status) { s with agenda := rest })

/-- One step of the machine (log 2). -/
def step (s : State) : Host.Outcome State Fault Refusal :=
  match s.agenda with
  | [] => engineTurn s
  | .host a :: rest => .next (hostAccess a { s with agenda := rest })
  | .engine :: rest => engineTurn { s with agenda := rest }
  | .wait :: rest => waitStep rest s
  | .assertReset :: rest => .next { s with agenda := rest }.assertReset
  | .releaseReset :: rest => .next { s with agenda := rest }.releaseReset
  | .powerCycle :: rest => .next { s with agenda := rest }.powerCycle

/-- `s` with the word `w` in CMD and its START just accepted, and the engine next to act: so the very next step is the completion
step of that word (10_state.md R36, 40_command_common.md R100; log 3). -/
def State.withFetchWord (s : State) (nbits w : Nat) : State :=
  { s with cmd := tableWord nbits w, hardReset := false, agenda := [] }.acceptStart

end Sys2Proof.Machine
end

