-- ==== Sys2Proof/Safety.lean ====
section
/-! DEFINITION. What a good state is: the invariant of the machine, and the fault record's part in a good final state
(10_state.md R24, R33, R42). -/

namespace Sys2Proof.Machine

/-- A gradient pair within the range of 10_state.md R33. -/
abbrev Grad.inRange (g : Grad) : Prop := -1020 ≤ g.gx ∧ g.gx ≤ 1020 ∧ -1020 ≤ g.gy ∧ g.gy ≤ 1020

/-- The ORIENT buffer's invariant: while OV = 1 it holds OW·OH pairs in range of a shape the hardware accepts; while OV = 0
its shape is 0 and it holds nothing (10_state.md R30, R33). -/
structure Orient.Good (p : Params) (o : Orient) : Prop where
  shape : o.valid = true → 1 ≤ o.width.toNat ∧ o.width.toNat ≤ p.maxW ∧ 1 ≤ o.height.toNat ∧ o.height.toNat ≤ p.maxH
  count : o.pairs.length = o.width.toNat * o.height.toNat
  bound : ∀ g ∈ o.pairs, g.inRange
  empty : o.valid = false → o = Orient.invalid

/-- The snapshot's invariant: canonical, and holding bytes of the source region only (40_command_common.md R103). -/
structure Latch.Good (p : Params) (l : Latch) : Prop where
  canonical : Memory.wf l.source
  region : ∀ c ∈ l.source, l.srcBase ≤ c.1 ∧ c.1 < l.srcBase + l.srcSize
  orient : Orient.Good p l.orient

/-- The invariant of the machine. -/
structure State.Inv (s : State) : Prop where
  /-- The parameters are in their ranges (00_scope.md R6, 20_memory.md R65). -/
  params : s.params.Valid
  /-- Frame memory is canonical. -/
  canonical : Memory.wf s.mem
  /-- Frame memory has no byte at or above FMEM_BYTES (20_memory.md R60). -/
  inside : Memory.below s.mem s.params.fmemBytes
  /-- BUSY = 1 implies DONE = 0, ERR = 0 and ERR_CODE = 0 (10_state.md R24). -/
  busy : s.busy = true → s.done = false ∧ s.err = false ∧ s.errCode = 0
  /-- ERR = 1 holds exactly when ERR_CODE ≠ 0 (10_state.md R24). -/
  error : s.err = true ↔ s.errCode ≠ 0
  /-- The ORIENT buffer is good. -/
  orient : Orient.Good s.params s.orient
  /-- The latched snapshot is good. -/
  latch : ∀ l, s.latch = some l → Latch.Good s.params l
  /-- No command runs while the hard reset is asserted (70_reset_and_hazards.md R340, R345). -/
  reset : s.hardReset = true → s.latch = none

/-- No model fault has been recorded (10_state.md R42). -/
def State.faultFree (s : State) : Prop := s.faults = FaultRecord.empty

/-- A good final state has no recorded fault (10_state.md R42: "A state with a recorded fault is never a good final state") and no
running command. R42 gives the first condition only, as a necessary one; that BUSY = 0 is asked too, and nothing more, is
the model's choice. (DESIGN CHOICE, log 26.) -/
def State.goodFinal (s : State) : Prop := s.faultFree ∧ s.busy = false

end Sys2Proof.Machine
end

