-- ==== Sys2Proof/Certificates/Slice0/Obligations.lean ====
section
/-! DEFINITION. The statements for the provers. Each says what the RFC does, from the numbered rules of spec/. The words the
statements share stand first (namespace `Sys2Proof.Claims`); they are written from the rules again, not by the model's
own functions, wherever a rule gives a formula. -/

namespace Sys2Proof.Claims

open Sys2Proof.Machine

/-- The destination size `Nd` of 40_command_common.md R101. -/
def destCount (i : Instr) (l : Latch) : Nat :=
  match i with
  | .htone => 4 * (l.w.toNat * l.h.toNat)
  | .boxds => l.tw.toNat * l.th.toNat
  | .gblur | .sobel | .nms | .thresh | .hyst | .fsdith => l.w.toNat * l.h.toNat

/-- The size of the destination region of a latched command; an illegal word has none (R101; log 11). -/
def destSpan (l : Latch) : Nat :=
  match commandOf? l.cmd with
  | some i => destCount i l
  | none => 0

/-- Offset `a` lies in the source region of the latched command (40_command_common.md R101). -/
def InSource (l : Latch) (a : Nat) : Prop :=
  l.src.toNat ≤ a ∧ a < l.src.toNat + l.w.toNat * l.h.toNat

/-- Offset `a` lies in the destination region of the latched command (40_command_common.md R101). -/
def InDest (l : Latch) (a : Nat) : Prop :=
  l.dst.toNat ≤ a ∧ a < l.dst.toNat + destSpan l

/-- The condition under which one check of 40_command_common.md R102 fails, for the command `i?` the latched word stands for
(none when the word is illegal). -/
def Fails (p : Params) (i? : Option Instr) (l : Latch) : CmdError → Prop
  | .illegalCmd => i? = none
  | .badDim => l.w.toNat = 0 ∨ l.h.toNat = 0 ∨ p.maxW < l.w.toNat ∨ p.maxH < l.h.toNat
  | .badRatio => i? = some .boxds ∧
      (l.tw.toNat = 0 ∨ l.th.toNat = 0 ∨ l.w.toNat % l.tw.toNat ≠ 0 ∨ l.h.toNat % l.th.toNat ≠ 0)
  | .range => ∃ i, i? = some i ∧
      (p.fmemBytes < l.src.toNat + l.w.toNat * l.h.toNat ∨ p.fmemBytes < l.dst.toNat + destCount i l)
  | .overlap => ∃ i, i? = some i ∧
      (l.src.toNat < l.dst.toNat + destCount i l ∧ l.dst.toNat < l.src.toNat + l.w.toNat * l.h.toNat) ∧
      ¬ (l.src.toNat = l.dst.toNat ∧ destCount i l = l.w.toNat * l.h.toNat)
  | .noOrient => i? = some .nms ∧ (l.orient.valid = false ∨ l.orient.width ≠ l.w ∨ l.orient.height ≠ l.h)

/-- The check `e` fails and none before it in the order of R102 (which is the order of the codes, R300) does. -/
def FirstFails (p : Params) (i? : Option Instr) (l : Latch) (e : CmdError) : Prop :=
  Fails p i? l e ∧ ∀ e' : CmdError, e'.code < e.code → ¬ Fails p i? l e'

/-- Every check of R102 passes for command `i`. -/
def Passes (p : Params) (i : Instr) (l : Latch) : Prop := ∀ e, ¬ Fails p (some i) l e

/-- The snapshot holds the plane S: every byte of it has a value, and it is the sample (40_command_common.md R103, R104). -/
def HoldsSource (l : Latch) (S : Nat → Nat → Nat) : Prop :=
  ∀ r c, r < l.h.toNat → c < l.w.toNat →
    ∃ b, Memory.read l.source (l.src.toNat + (r * l.w.toNat + c)) = some b ∧ b.toNat = S r c

/-- Command `i` runs in `s` with the latched state `l`, passes its checks, has a written source plane S and no race on it. -/
structure Ready (i : Instr) (s : State) (l : Latch) (S : Nat → Nat → Nat) : Prop where
  latched : s.latch = some l
  calm : l.raced = false
  checks : Passes s.params i l
  source : HoldsSource l S

/-- What every completion step does (40_command_common.md R106), and nothing but this and frame memory. -/
def Completed (s t : State) : Prop :=
  t = { s with mem := t.mem, latch := none, done := true, cmdCount := s.cmdCount + 1 }

/-- Frame memory outside the n bytes from `base` on is as before. -/
def SameOutside (m m' : Memory) (base n : Nat) : Prop :=
  ∀ a, (a < base ∨ base + n ≤ a) → Memory.read m' a = Memory.read m a

/-- The byte at offset `a` holds the integer `v`. -/
def ByteIs (m : Memory) (a v : Nat) : Prop := ∃ b, Memory.read m a = some b ∧ b.toNat = v

/-- 1 ≤ r ≤ H−2 and 1 ≤ c ≤ W−2 (00_scope.md R10). -/
abbrev Inside (l : Latch) (r c : Nat) : Prop :=
  1 ≤ r ∧ r + 2 ≤ l.h.toNat ∧ 1 ≤ c ∧ c + 2 ≤ l.w.toNat

/-- gx of 42_sobel_gradient.md R141. -/
def sobelGx (S : Nat → Nat → Nat) (r c : Nat) : Int :=
  ((S (r - 1) (c + 1) : Int) + 2 * S r (c + 1) + S (r + 1) (c + 1)) -
    (S (r - 1) (c - 1) + 2 * S r (c - 1) + S (r + 1) (c - 1))

/-- gy of 42_sobel_gradient.md R141. -/
def sobelGy (S : Nat → Nat → Nat) (r c : Nat) : Int :=
  ((S (r + 1) (c - 1) : Int) + 2 * S (r + 1) c + S (r + 1) (c + 1)) -
    (S (r - 1) (c - 1) + 2 * S (r - 1) c + S (r - 1) (c + 1))

/-- The samples n1 and n2 of 43_non_max_suppression.md R163. -/
def comparedWith (S : Nat → Nat → Nat) (r c : Nat) : Sector → Nat × Nat
  | .H => (S r (c + 1), S r (c - 1))
  | .D1 => (S (r - 1) (c + 1), S (r + 1) (c - 1))
  | .V => (S (r - 1) c, S (r + 1) c)
  | .D2 => (S (r - 1) (c - 1), S (r + 1) (c + 1))

/-- One of the 8-neighbours of (r, c) is Strong (00_scope.md R11, 45_hysteresis.md R201). -/
def StrongBeside (S : Nat → Nat → Nat) (r c : Nat) : Prop :=
  ∃ r' c', r ≤ r' + 1 ∧ r' ≤ r + 1 ∧ c ≤ c' + 1 ∧ c' ≤ c + 1 ∧ (r', c') ≠ (r, c) ∧ S r' c' = 255

/-- HT_PATTERN[bucket(p)] for the band width HT_BAND: with 51 the buckets of 46_halftone.md R222 (R223); the bucket ends of another
band width are the model's choice (log 25). -/
def patternFor (t : Patterns) (band p : Nat) : Pattern :=
  if p ≤ band then t.p0
  else if p ≤ 2 * band then t.p1
  else if p ≤ 3 * band then t.p2
  else if p ≤ 4 * band then t.p3
  else t.p4

/-- The binary32 value of the integer `k`, as its units of 2^-149. -/
def whole (k : Nat) : F32 := ⟨(k : ℤ) * 2 ^ 149⟩

/-- The binary32 value of the weight k/16, as its units of 2^-149 (47_floyd_steinberg.md R241). -/
def weight (k : Nat) : F32 := ⟨(k : ℤ) * 2 ^ 145⟩

/-- The field after pixel `k` of a W×H plane is visited, cell by cell (47_floyd_steinberg.md R241, R244): the four neighbours
inside the plane receive their share, no other cell changes. -/
def spreadError (w h k : Nat) (e : F32) (F : Nat → F32) (n : Nat) : F32 :=
  if k % w + 1 < w ∧ n = k + 1 then (F n).add (e.mul (weight 7))
  else if k / w + 1 < h ∧ 1 ≤ k % w ∧ n + 1 = k + w then (F n).add (e.mul (weight 3))
  else if k / w + 1 < h ∧ n = k + w then (F n).add (e.mul (weight 5))
  else if k / w + 1 < h ∧ k % w + 1 < w ∧ n = k + w + 1 then (F n).add (e.mul (weight 1))
  else F n

/-- The integer `u` counts units of 2^-149 of a binary32 value without its upper bound: at most 24 significant bits. -/
def Representable (u : Int) : Prop := ∃ m k : Nat, m < 2 ^ 24 ∧ u.natAbs = m * 2 ^ k

/-- `r` is the real n / 2^j rounded, both counted in units of 2^-149: `r` is a binary32 value, no binary32 value is nearer, and
of two nearest it is the one whose last of 24 bits is even (00_scope.md R9). -/
def IsRounding (n : ℤ) (j : Nat) (r : ℤ) : Prop :=
  Representable r ∧
    ∀ u : ℤ, Representable u →
      |n - r * 2 ^ j| ≤ |n - u * 2 ^ j| ∧
      (u ≠ r → |n - r * 2 ^ j| = |n - u * 2 ^ j| → 2 * (u - r) ∣ r)

/-- The host's next access is `a`, and the hard reset is not asserted. -/
structure HostNext (s : State) (a : Access) (rest : List Event) : Prop where
  next : s.agenda = .host a :: rest
  live : s.hardReset = false

/-- The engine acts next: nothing is on the agenda, or the engine's turn is, and `s'` is the state with that turn taken off. -/
def EngineNext (s s' : State) : Prop :=
  (s.agenda = [] ∧ s' = s) ∨ ∃ rest, s.agenda = .engine :: rest ∧ s' = { s with agenda := rest }

/-- The state after `n` steps, none if one of them does not answer a next state. -/
def runFor : Nat → State → Option State
  | 0, s => some s
  | n + 1, s =>
    match step s with
    | .next t => runFor n t
    | .fault _ => none
    | .refused _ => none

/-- The registers a host can write and read back, with their fields (10_state.md R25 to R29, R31). -/
def storedIn (s : State) : Reg → Option Word
  | .cmd => some s.cmd
  | .srcBase => some s.srcBase
  | .dstBase => some s.dstBase
  | .srcDim => some s.srcDim
  | .dstDim => some s.dstDim
  | .orientIndex => some s.orientIndex
  | .id | .ctrl | .status | .orientDim | .orientData | .cmdCount | .reserved => none

/-- `s` with the six read-write operand registers replaced. -/
def withOperands (s : State) (c sb db sd dd oi : Word) : State :=
  { s with cmd := c, srcBase := sb, dstBase := db, srcDim := sd, dstDim := dd, orientIndex := oi }

/-- The registers of 70_reset_and_hazards.md R341 at their reset values, everything else as in `s`. -/
def resetRegisters (s : State) : State :=
  { s with
    irqEn := false
    done := false
    err := false
    startIgnored := false
    errCode := 0
    cmd := 0
    srcBase := 0
    dstBase := 0
    srcDim := 0
    dstDim := 0
    orientIndex := 0
    cmdCount := 0
    orient := ⟨false, 0, 0, []⟩
    latch := none }

/-- θ' of 43_non_max_suppression.md R162: atan2(gy, gx), plus π when it is negative. -/
noncomputable def foldedAngle (g : Grad) : ℝ :=
  if Complex.arg (⟨g.gx, g.gy⟩ : ℂ) < 0 then Complex.arg (⟨g.gx, g.gy⟩ : ℂ) + Real.pi
  else Complex.arg (⟨g.gx, g.gy⟩ : ℂ)

/-- The four sectors of the source by angle (43_non_max_suppression.md R162). -/
def InSector (θ : ℝ) : Sector → Prop
  | .H => (0 ≤ θ ∧ θ ≤ Real.pi / 8) ∨ (7 * Real.pi / 8 < θ ∧ θ ≤ Real.pi)
  | .D1 => Real.pi / 8 < θ ∧ θ ≤ 3 * Real.pi / 8
  | .V => 3 * Real.pi / 8 < θ ∧ θ ≤ 5 * Real.pi / 8
  | .D2 => 5 * Real.pi / 8 < θ ∧ θ ≤ 7 * Real.pi / 8

end Sys2Proof.Claims

open Sys2Proof Sys2Proof.Machine Sys2Proof.Claims

/-! ### Encoding -/

/-- Decoding the four bytes of a well-formed command gives it back, and leaves what follows (R80, R81). -/
def Obligations.DecodeInvertsEncode : Prop :=
  ∀ (i : Instr) (rest : List Byte), i.wellFormed = true → decode (encodeBytes i ++ rest) = .ok (i, rest)

/-- A word is legal exactly when it is the word of a command: exactly when RSVD = 0 and OPCODE is 0x1 to 0x8; there are
2^32 − 8 illegal words (R84). -/
def Obligations.LegalWordsAreTheEightCommandWords : Prop :=
  (∀ (w : Word) (i : Instr), decodeWord w = .ok i ↔ w = encode i) ∧
  (∀ w : Word, (∃ e, decodeWord w = .error e) ↔
    (w.extractLsb' 0 4 = 0 ∨ 9 ≤ (w.extractLsb' 0 4).toNat) ∨ w.extractLsb' 4 28 ≠ 0) ∧
  (Finset.univ.filter fun w : Word => commandOf? w = none).card = 2 ^ 32 - 8

/-- The eight words of the opcode table, written out bit by bit, decode to their commands; CMD's reset value and OPCODE 9 do
not (R81). -/
def Obligations.WrittenOutWordsDecode : Prop :=
  decodeWord 0b00000000000000000000000000000001 = .ok .gblur ∧
  decodeWord 0b00000000000000000000000000000010 = .ok .sobel ∧
  decodeWord 0b00000000000000000000000000000011 = .ok .nms ∧
  decodeWord 0b00000000000000000000000000000100 = .ok .thresh ∧
  decodeWord 0b00000000000000000000000000000101 = .ok .hyst ∧
  decodeWord 0b00000000000000000000000000000110 = .ok .htone ∧
  decodeWord 0b00000000000000000000000000000111 = .ok .fsdith ∧
  decodeWord 0b00000000000000000000000000001000 = .ok .boxds ∧
  decodeWord 0b00000000000000000000000000000000 = .error .illegalOpcode ∧
  decodeWord 0b00000000000000000000000000001001 = .error .illegalOpcode ∧
  decodeWord 0b00000000000000000000000000010001 = .error .reservedBits

/-- When the engine acts next and the latched word decodes to `i`, the step is `exec i` (R36, R73, R106); that the engine acts next on
an empty agenda is the model's choice (log 2). `withFetchWord` puts a word in place so that the very next step is the completion
step of that word: the model's choice (log 3). -/
def Obligations.StepRunsTheLatchedCommand : Prop :=
  (∀ (s s' : State) (l : Latch) (i : Instr), EngineNext s s' → s.latch = some l → decodeWord l.cmd = .ok i →
    step s = exec i s') ∧
  (∀ (s : State) (i : Instr),
    step (s.withFetchWord 32 (encode i).toNat) = exec i (s.withFetchWord 32 (encode i).toNat))

/-- A command whose latched word is illegal completes with ILLEGAL_CMD: no frame memory byte and nothing of the ORIENT buffer
changes (R84, R301). -/
def Obligations.IllegalCommandWordIsReported : Prop :=
  ∀ (s s' : State) (l : Latch), EngineNext s s' → s.latch = some l → commandOf? l.cmd = none →
    step s = .next { s' with err := true, errCode := 1, latch := none, done := true, cmdCount := s.cmdCount + 1 }

/-! ### The eight commands -/

/-- GBLUR completes; an interior byte is Σ // 16 (R121), a border byte is copied (R122); no other byte and no other state changes. -/
def Obligations.GblurWritesTheTruncatedMean : Prop :=
  ∀ (s : State) (l : Latch) (S : Nat → Nat → Nat), Ready .gblur s l S →
    ∃ t, exec .gblur s = .next t ∧ Completed s t ∧
      SameOutside s.mem t.mem l.dst.toNat (l.w.toNat * l.h.toNat) ∧
      ∀ r c, r < l.h.toNat → c < l.w.toNat →
        ByteIs t.mem (l.dst.toNat + (r * l.w.toNat + c))
          (if Inside l r c then
            (1 * S (r - 1) (c - 1) + 2 * S (r - 1) c + 1 * S (r - 1) (c + 1)
              + 2 * S r (c - 1) + 4 * S r c + 2 * S r (c + 1)
              + 1 * S (r + 1) (c - 1) + 2 * S (r + 1) c + 1 * S (r + 1) (c + 1)) / 16
          else S r c)

/-- SOBEL completes; an interior byte is min(255, round(sqrt(gx² + gy²))) (R141, R142), a border byte is 0 (R146); the ORIENT buffer
takes the shape and every pair (R145); no other byte and no other state changes. A SOBEL that ends with an error leaves the
ORIENT buffer as it was (R145). -/
def Obligations.SobelWritesMagnitudeAndOrient : Prop :=
  (∀ (s : State) (l : Latch) (e : CmdError), s.latch = some l → FirstFails s.params (some .sobel) l e →
    ∃ t, exec .sobel s = .next t ∧ t.orient = s.orient) ∧
  ∀ (s : State) (l : Latch) (S : Nat → Nat → Nat), Ready .sobel s l S →
    ∃ t, exec .sobel s = .next t ∧ Completed { s with orient := t.orient } t ∧
      SameOutside s.mem t.mem l.dst.toNat (l.w.toNat * l.h.toNat) ∧
      t.orient.valid = true ∧ t.orient.width = l.w ∧ t.orient.height = l.h ∧
      t.orient.pairs.length = l.w.toNat * l.h.toNat ∧
      ∀ r c, r < l.h.toNat → c < l.w.toNat →
        t.orient.pairs[r * l.w.toNat + c]? = some (if Inside l r c then ⟨sobelGx S r c, sobelGy S r c⟩ else ⟨0, 0⟩) ∧
        ∃ b, Memory.read t.mem (l.dst.toNat + (r * l.w.toNat + c)) = some b ∧
          (b.toNat : ℤ) = if Inside l r c then
            min 255 (round (Real.sqrt ((sobelGx S r c : ℝ) ^ 2 + (sobelGy S r c : ℝ) ^ 2))) else 0

/-- NMS completes; an interior byte is kept exactly when it is at least both neighbours of its pair's sector (R161, R163), every
other byte is 0 (R165); the ORIENT buffer and all other state are unchanged. -/
def Obligations.NmsKeepsLocalMaxima : Prop :=
  ∀ (s : State) (l : Latch) (S : Nat → Nat → Nat) (G : Nat → Nat → Grad), Ready .nms s l S →
    (∀ r c, r < l.h.toNat → c < l.w.toNat → l.orient.pairs[r * l.w.toNat + c]? = some (G r c)) →
    ∃ t, exec .nms s = .next t ∧ Completed s t ∧
      SameOutside s.mem t.mem l.dst.toNat (l.w.toNat * l.h.toNat) ∧
      ∀ r c, r < l.h.toNat → c < l.w.toNat →
        ByteIs t.mem (l.dst.toNat + (r * l.w.toNat + c))
          (if Inside l r c ∧ (comparedWith S r c (sector (G r c))).1 ≤ S r c ∧
              (comparedWith S r c (sector (G r c))).2 ≤ S r c then S r c else 0)

/-- THRESH is the command word 0x00000004 (R181) and completes; every byte, border and interior, is its class for the parameters
LOW_T and HIGH_T (R181), which this hardware gives the values 168 and 101; no other byte and no other state changes. -/
def Obligations.ThreshClassifiesEveryPixel : Prop :=
  decodeWord 0x00000004 = .ok .thresh ∧ Literals.source.lowT = 168 ∧ Literals.source.highT = 101 ∧
  ∀ (s : State) (l : Latch) (S : Nat → Nat → Nat), Ready .thresh s l S →
    ∃ t, exec .thresh s = .next t ∧ Completed s t ∧
      SameOutside s.mem t.mem l.dst.toNat (l.w.toNat * l.h.toNat) ∧
      ∀ r c, r < l.h.toNat → c < l.w.toNat →
        ByteIs t.mem (l.dst.toNat + (r * l.w.toNat + c))
          (if S r c ≤ s.params.literals.lowT then 0
          else if s.params.literals.lowT < S r c ∧ S r c ≤ s.params.literals.highT then 1
          else 255)

/-- HYST completes; an interior Strong stays, an interior Weak becomes 255 exactly beside a Strong of the snapshot, everything
else becomes 0 (R201, R202, R203); no other byte and no other state changes. -/
def Obligations.HystPromotesWeakBesideStrong : Prop :=
  ∀ (s : State) (l : Latch) (S : Nat → Nat → Nat), Ready .hyst s l S →
    ∃ t, exec .hyst s = .next t ∧ Completed s t ∧
      SameOutside s.mem t.mem l.dst.toNat (l.w.toNat * l.h.toNat) ∧
      ∀ r c, r < l.h.toNat → c < l.w.toNat →
        ∃ v, ByteIs t.mem (l.dst.toNat + (r * l.w.toNat + c)) v ∧ (v = 0 ∨ v = 255) ∧
          (v = 255 ↔ Inside l r c ∧ (S r c = 255 ∨ (S r c = 1 ∧ StrongBeside S r c)))

/-- HTONE completes; each source pixel's 2×2 block holds the pattern of its bucket, for every HT_PATTERN; no other byte and no other
state changes (R221, R222 for HT_BAND = 51, the value of this hardware). That the same holds for every HT_BAND, with bucket
ends at 1, 2, 3 and 4 times HT_BAND, is the model's choice (log 25). -/
def Obligations.HtoneWritesThePatternOfEachBucket : Prop :=
  Literals.source.htBand = 51 ∧
  ∀ (s : State) (l : Latch) (S : Nat → Nat → Nat), Ready .htone s l S →
    ∃ t, exec .htone s = .next t ∧ Completed s t ∧
      SameOutside s.mem t.mem l.dst.toNat (4 * (l.w.toNat * l.h.toNat)) ∧
      ∀ r c, r < l.h.toNat → c < l.w.toNat →
        Memory.read t.mem (l.dst.toNat + ((2 * r) * (2 * l.w.toNat) + 2 * c)) =
          some (patternFor s.params.patterns s.params.literals.htBand (S r c)).tl ∧
        Memory.read t.mem (l.dst.toNat + ((2 * r) * (2 * l.w.toNat) + (2 * c + 1))) =
          some (patternFor s.params.patterns s.params.literals.htBand (S r c)).tr ∧
        Memory.read t.mem (l.dst.toNat + ((2 * r + 1) * (2 * l.w.toNat) + 2 * c)) =
          some (patternFor s.params.patterns s.params.literals.htBand (S r c)).bl ∧
        Memory.read t.mem (l.dst.toNat + ((2 * r + 1) * (2 * l.w.toNat) + (2 * c + 1))) =
          some (patternFor s.params.patterns s.params.literals.htBand (S r c)).br

/-- FSDITH completes; with F k the error field before pixel k is visited, seeded from the source, each visit writes quant(v) and
spreads e = v ⊖ q to the neighbours inside the plane; no other byte and no other state changes (R241, R244 for FS_STEP = 17, the
value of this hardware). That the same holds for every FS_STEP whose levels fit a sample is the model's choice (log 25). -/
def Obligations.FsdithDiffusesTheError : Prop :=
  Literals.source.fsStep = 17 ∧
  ∀ (s : State) (l : Latch) (S : Nat → Nat → Nat), Ready .fsdith s l S → 15 * s.params.literals.fsStep ≤ 255 →
    ∃ t, exec .fsdith s = .next t ∧ Completed s t ∧
      SameOutside s.mem t.mem l.dst.toNat (l.w.toNat * l.h.toNat) ∧
      ∃ F : Nat → Nat → F32,
        (∀ n, n < l.w.toNat * l.h.toNat → F 0 n = whole (S (n / l.w.toNat) (n % l.w.toNat))) ∧
        ∀ k, k < l.w.toNat * l.h.toNat →
          ByteIs t.mem (l.dst.toNat + k) (quant s.params.literals.fsStep (F k k)) ∧
          ∀ n, n < l.w.toNat * l.h.toNat →
            F (k + 1) n = spreadError l.w.toNat l.h.toNat k
              ((F k k).sub (whole (quant s.params.literals.fsStep (F k k)))) (F k) n

/-- BOXDS completes; each destination byte is the truncated average of its block (R261); no other byte and no other state changes. -/
def Obligations.BoxdsAveragesBlocks : Prop :=
  ∀ (s : State) (l : Latch) (S : Nat → Nat → Nat), Ready .boxds s l S →
    ∃ t, exec .boxds s = .next t ∧ Completed s t ∧
      SameOutside s.mem t.mem l.dst.toNat (l.tw.toNat * l.th.toNat) ∧
      ∀ i j, i < l.th.toNat → j < l.tw.toNat →
        ByteIs t.mem (l.dst.toNat + (i * l.tw.toNat + j))
          ((∑ a ∈ Finset.range (l.h.toNat / l.th.toNat), ∑ b ∈ Finset.range (l.w.toNat / l.tw.toNat),
              S (i * (l.h.toNat / l.th.toNat) + a) (j * (l.w.toNat / l.tw.toNat) + b)) /
            ((l.h.toNat / l.th.toNat) * (l.w.toNat / l.tw.toNat)))

/-! ### Checks, errors and hazards of a command -/

/-- The six codes are 1 to 6, and the outcome of a latched command is the first failing check in the order of the codes, and OK
exactly when none fails (R102). -/
def Obligations.FirstFailingCheckIsTheOutcome : Prop :=
  ([.illegalCmd, .badDim, .badRatio, .range, .overlap, .noOrient].map CmdError.code = [1, 2, 3, 4, 5, 6]) ∧
  ∀ (p : Params) (l : Latch),
    (∀ e, Latch.outcome p l = some e ↔ FirstFails p (commandOf? l.cmd) l e) ∧
    (Latch.outcome p l = none ↔ ∀ e, ¬ Fails p (commandOf? l.cmd) l e)

/-- A command whose first failing check is `e`, an illegal word among them, completes with ERR and the code of `e`; besides STATUS,
CMD_COUNT and the latched state nothing differs, so no frame memory byte and nothing of the ORIENT buffer (R301). -/
def Obligations.FailedCheckChangesOnlyStatusAndCount : Prop :=
  (∀ (s s' : State) (l : Latch) (e : CmdError), EngineNext s s' → s.latch = some l →
    FirstFails s.params (commandOf? l.cmd) l e →
    step s = .next { s' with err := true, errCode := e.code, latch := none, done := true, cmdCount := s.cmdCount + 1 }) ∧
  ∀ (i : Instr) (s : State) (l : Latch) (e : CmdError), s.latch = some l → FirstFails s.params (some i) l e →
    exec i s = .next { s with err := true, errCode := e.code, latch := none, done := true, cmdCount := s.cmdCount + 1 }

/-- No command stops: while one is latched every `exec i` answers a next state, with DONE set, BUSY clear, CMD_COUNT one more,
the operand registers, IRQ_EN and START_IGNORED as before, and no byte outside its destination region changed (R105, R106). -/
def Obligations.EveryCommandCompletesWithinItsRegion : Prop :=
  ∀ (i : Instr) (s : State) (l : Latch), s.latch = some l →
    ∃ t, exec i s = .next t ∧ t.busy = false ∧ t.done = true ∧ t.cmdCount = s.cmdCount + 1 ∧
      (t.err = true → s.err = true ∨ ∃ e, FirstFails s.params (some i) l e) ∧
      t = { s with mem := t.mem, orient := t.orient, faults := t.faults, draws := t.draws, err := t.err,
                   errCode := t.errCode, latch := none, done := true, cmdCount := s.cmdCount + 1 } ∧
      (i ≠ .sobel → t.orient = s.orient) ∧
      SameOutside s.mem t.mem l.dst.toNat (destCount i l)

/-- A command that passes its checks but whose source plane holds a byte nobody wrote records UNINIT_READ and still completes;
its destination bytes hold some value each, no other byte changes (R67; any of the W·H source bytes counts: the model's
reading, log 8). A SOBEL among them still sets OV and the shape: the model's choice (log 9). -/
def Obligations.UnwrittenSourceRecordsUninitRead : Prop :=
  ∀ (i : Instr) (s : State) (l : Latch) (k : Nat), s.latch = some l → Passes s.params i l →
    k < l.w.toNat * l.h.toNat → Memory.read l.source (l.src.toNat + k) = none →
    ∃ t, exec i s = .next t ∧ t.faults = { s.faults with uninitRead := true } ∧
      t = { s with mem := t.mem, orient := t.orient, draws := t.draws, faults := t.faults,
                   latch := none, done := true, cmdCount := s.cmdCount + 1 } ∧
      (i ≠ .sobel → t.orient = s.orient) ∧
      (i = .sobel → t.orient.valid = true ∧ t.orient.width = l.w ∧ t.orient.height = l.h) ∧
      SameOutside s.mem t.mem l.dst.toNat (destCount i l) ∧
      ∀ n, n < destCount i l → ∃ b, Memory.read t.mem (l.dst.toNat + n) = some b

/-- A command hit by a HOST_RACE, with a written source, still completes without a command error and records no further fault; its
destination bytes hold some value each, no other byte changes (R71, R308; some value in every destination byte, and the
ORIENT buffer kept by all but SOBEL: the model's reading, log 10). -/
def Obligations.RacedCommandStillCompletes : Prop :=
  ∀ (i : Instr) (s : State) (l : Latch) (S : Nat → Nat → Nat), s.latch = some l → l.raced = true →
    Passes s.params i l → HoldsSource l S →
    ∃ t, exec i s = .next t ∧
      t = { s with mem := t.mem, orient := t.orient, draws := t.draws,
                   latch := none, done := true, cmdCount := s.cmdCount + 1 } ∧
      (i ≠ .sobel → t.orient = s.orient) ∧
      SameOutside s.mem t.mem l.dst.toNat (destCount i l) ∧
      ∀ n, n < destCount i l → ∃ b, Memory.read t.mem (l.dst.toNat + n) = some b

/-- The running command reads only the latched values: rewriting CMD, the operand registers or ORIENT_INDEX while it runs changes
nothing of what its completion step does (R36, R351). -/
def Obligations.CommandReadsOnlyLatchedOperands : Prop :=
  ∀ (i : Instr) (s : State) (c sb db sd dd oi : Word), s.busy = true →
    ∃ t, exec i s = .next t ∧ exec i (withOperands s c sb db sd dd oi) = .next (withOperands t c sb db sd dd oi)

/-- The result depends on the frame memory at START alone: whatever memory holds at completion, the destination bytes a command
with a written source and no race writes are the same (R103). -/
def Obligations.ResultComesFromTheSnapshot : Prop :=
  ∀ (i : Instr) (s : State) (l : Latch) (S : Nat → Nat → Nat) (m : Memory), Ready i s l S →
    ∃ t t', exec i s = .next t ∧ exec i { s with mem := m } = .next t' ∧ t'.orient = t.orient ∧
      ∀ n, n < destCount i l → Memory.read t'.mem (l.dst.toNat + n) = Memory.read t.mem (l.dst.toNat + n)

/-! ### Host accesses to the register block -/

/-- A CTRL write with bit 0 = 1 and bit 1 = 0 while BUSY = 0 latches the operands and the snapshot, clears DONE, ERR and ERR_CODE,
and writes IRQ_EN; nothing else changes (R100, R103; for a command that is not NMS the latched ORIENT buffer is empty:
the model's reading, log 20). -/
def Obligations.StartAcceptanceLatchesTheCommand : Prop :=
  ∀ (s : State) (v : Word) (rest : List Event), HostNext s (writeRegAccess s.params .ctrl v) rest →
    s.busy = false → v.getLsbD 0 = true → v.getLsbD 1 = false →
    ∃ l t, step s = .next t ∧
      t = { s with agenda := rest, irqEn := v.getLsbD 2, done := false, err := false, errCode := 0,
                   latch := some l, reply := .done } ∧
      l.cmd = s.cmd ∧ l.src = s.srcBase ∧ l.dst = s.dstBase ∧
      l.w = s.srcDim.extractLsb' 0 16 ∧ l.h = s.srcDim.extractLsb' 16 16 ∧
      l.tw = s.dstDim.extractLsb' 0 16 ∧ l.th = s.dstDim.extractLsb' 16 16 ∧ l.raced = false ∧
      (∀ k, k < l.w.toNat * l.h.toNat →
        Memory.read l.source (l.src.toNat + k) = Memory.read s.mem (l.src.toNat + k)) ∧
      l.orient = if s.cmd = 3 then s.orient else ⟨false, 0, 0, []⟩

/-- A CTRL write with bit 0 = 1 and bit 1 = 0 while BUSY = 1 starts nothing: it sets START_IGNORED and writes IRQ_EN, and the running
command is not affected (R350). -/
def Obligations.StartWhileBusyIsIgnored : Prop :=
  ∀ (s : State) (v : Word) (rest : List Event), HostNext s (writeRegAccess s.params .ctrl v) rest →
    s.busy = true → v.getLsbD 0 = true → v.getLsbD 1 = false →
    step s = .next { s with agenda := rest, startIgnored := true, irqEn := v.getLsbD 2, reply := .done }

/-- A CTRL write with bit 1 = 1 is the soft reset, whatever bits 0 and 2 are; one with bits 0 and 1 clear only writes IRQ_EN;
CTRL then reads IRQ_EN at bit 2 and 0 elsewhere (R23). -/
def Obligations.CtrlWriteActsInOrder : Prop :=
  ∀ (s : State) (v : Word) (rest : List Event), HostNext s (writeRegAccess s.params .ctrl v) rest →
    (v.getLsbD 1 = true → step s = .next { { s with agenda := rest }.resetBlock with reply := .done } ∧
      { s with agenda := rest }.resetBlock.irqEn = false ∧ { s with agenda := rest }.resetBlock.latch = none) ∧
    (v.getLsbD 1 = false → v.getLsbD 0 = false →
      step s = .next { s with agenda := rest, irqEn := v.getLsbD 2, reply := .done }) ∧
    ∃ t, step s = .next t ∧ t.regValue .ctrl = if t.irqEn then 4 else 0

/-- A STATUS write clears DONE, ERR (and with it ERR_CODE) and START_IGNORED where a 1 is written, keeps them where a 0 is, and
changes nothing else (R24, R307). -/
def Obligations.StatusWriteClearsWhereOne : Prop :=
  ∀ (s : State) (v : Word) (rest : List Event), HostNext s (writeRegAccess s.params .status v) rest →
    step s = .next
      { s with
        agenda := rest
        reply := .done
        done := if v.getLsbD 1 then false else s.done
        err := if v.getLsbD 2 then false else s.err
        errCode := if v.getLsbD 2 then 0 else s.errCode
        startIgnored := if v.getLsbD 4 then false else s.startIgnored }

/-- Bit by bit, what STATUS reads: BUSY, DONE, ERR, ORIENT_VALID, START_IGNORED at bits 0 to 4, ERR_CODE at bits 11:8, 0 elsewhere
(R24, R86). -/
def Obligations.StatusWordLayout : Prop :=
  ∀ s : State,
    (s.regValue .status).getLsbD 0 = s.latch.isSome ∧ (s.regValue .status).getLsbD 1 = s.done ∧
    (s.regValue .status).getLsbD 2 = s.err ∧ (s.regValue .status).getLsbD 3 = s.orient.valid ∧
    (s.regValue .status).getLsbD 4 = s.startIgnored ∧
    (s.regValue .status).extractLsb' 5 3 = 0 ∧ (s.regValue .status).extractLsb' 8 4 = s.errCode ∧
    (s.regValue .status).extractLsb' 12 20 = 0

/-- A register read answers the register's value and has no other effect; only an ORIENT_DATA read while a SOBEL runs takes a free
value (R38;
the counter of free values is the model's own, log 6). -/
def Obligations.RegisterReadHasNoSideEffect : Prop :=
  ∀ (s : State) (r : Reg) (rest : List Event), HostNext s (readRegAccess s.params r) rest →
    ∃ n, (¬ (r = .orientData ∧ s.sobelRunning = true) → n = s.draws) ∧
      step s = .next { s with agenda := rest, reply := .data (s.regValue r), draws := n }

/-- CMD, SRC_BASE, DST_BASE, SRC_DIM, DST_DIM and ORIENT_INDEX store all 32 written bits, BUSY or not, and read them back; a write
changes no other register, no memory and not the running command (R25 to R29, R31, R351). -/
def Obligations.OperandRegistersHoldTheWrittenValue : Prop :=
  ∀ (s : State) (r : Reg) (v : Word) (rest : List Event), HostNext s (writeRegAccess s.params r v) rest →
    storedIn s r ≠ none →
    ∃ t, step s = .next t ∧ storedIn t r = some v ∧ t.regValue r = v ∧
      (∀ r', r' ≠ r → storedIn t r' = storedIn s r') ∧
      t = { s with agenda := rest, reply := .done, cmd := t.cmd, srcBase := t.srcBase, dstBase := t.dstBase,
                   srcDim := t.srcDim, dstDim := t.dstDim, orientIndex := t.orientIndex }

/-- Writes to ID, ORIENT_DIM, ORIENT_DATA, CMD_COUNT and the reserved slots 0x30 to 0xFC are ignored; ID reads 0x52460001 and a
reserved slot reads 0 (R22, R30, R32, R34, R37). -/
def Obligations.ReadOnlyRegistersIgnoreWrites : Prop :=
  (∀ (s : State) (off : Nat) (v : Word) (rest : List Event),
    HostNext s (.write (s.params.regBase + off) .word v) rest → off % 4 = 0 → off < 0x100 →
    (off = 0x00 ∨ off = 0x20 ∨ off = 0x28 ∨ 0x2C ≤ off) →
    step s = .next { s with agenda := rest, reply := .done }) ∧
  (∀ (s : State) (off : Nat) (rest : List Event),
    HostNext s (.read (s.params.regBase + off) .word) rest → off % 4 = 0 → off < 0x100 →
    (off = 0x00 → step s = .next { s with agenda := rest, reply := .data 0x52460001 }) ∧
    (0x30 ≤ off → step s = .next { s with agenda := rest, reply := .data 0 }))

/-- ORIENT_DIM reads OH and OW while OV = 1 and 0 otherwise (R30); ORIENT_DATA, while no SOBEL runs, reads the pair that ORIENT_INDEX
selects while OV = 1 and the index is below OW·OH, and 0 otherwise (R32). -/
def Obligations.OrientRegistersReadTheBuffer : Prop :=
  ∀ s : State,
    (s.orient.valid = true → (s.regValue .orientDim).extractLsb' 0 16 = s.orient.width ∧
      (s.regValue .orientDim).extractLsb' 16 16 = s.orient.height) ∧
    (s.orient.valid = false → s.regValue .orientDim = 0) ∧
    (s.sobelRunning = false →
      (∀ g, s.orient.valid = true → s.orientIndex.toNat < s.orient.width.toNat * s.orient.height.toNat →
        s.orient.pairs[s.orientIndex.toNat]? = some g → g.inRange →
        ((s.regValue .orientData).extractLsb' 0 16).toInt = g.gx ∧
        ((s.regValue .orientData).extractLsb' 16 16).toInt = g.gy) ∧
      (s.orient.valid = false ∨ s.orient.width.toNat * s.orient.height.toNat ≤ s.orientIndex.toNat →
        s.regValue .orientData = 0))

/-- A register access that is not 32 bits wide, or not at a multiple of 4, is refused: it records BAD_ACCESS and changes nothing else
(R38;
a refusal as a next state: log 14). -/
def Obligations.BadRegisterAccessIsRefused : Prop :=
  ∀ (s : State) (off : Nat) (w : Width) (a : Access) (rest : List Event), HostNext s a rest →
    (a = .read (s.params.regBase + off) w ∨ ∃ v, a = .write (s.params.regBase + off) w v) → off < 0x100 →
    (w ≠ .word ∨ off % 4 ≠ 0) →
    step s = .next { s with agenda := rest, faults := { s.faults with badAccess := true }, reply := .refused }

/-! ### Host accesses to frame memory -/

/-- A frame memory access that is misaligned for its width or does not lie in frame memory is refused: it records BAD_ACCESS and
changes nothing else (R60, R63). Alignment is by the offset from FMEM_BASE, whatever that base is, and an access that begins
inside and ends outside is refused whole: the model's choices (log 13); a refusal as a next state: log 14. -/
def Obligations.BadFrameAccessIsRefused : Prop :=
  ∀ (s : State) (off : Nat) (w : Width) (a : Access) (rest : List Event), HostNext s a rest →
    (a = .read (s.params.fmemBase + off) w ∨ ∃ v, a = .write (s.params.fmemBase + off) w v) →
    (s.params.fmemBase + off < s.params.regBase ∨ s.params.regBase + 0x100 ≤ s.params.fmemBase + off) →
    (off % w.bytes ≠ 0 ∨ s.params.fmemBytes < off + w.bytes) →
    step s = .next { s with agenda := rest, faults := { s.faults with badAccess := true }, reply := .refused }

/-- An aligned host write outside the running command's regions puts byte k of the value at offset + k and changes no other byte, no
register and not the running command; an aligned read of the same bytes then answers the value, little-endian (R61 to R64,
R71). Alignment is by the offset from FMEM_BASE, whatever that base is, and the count of free values is the model's own: the
model's choices (logs 13 and 6). -/
def Obligations.FrameWriteThenReadGivesTheValue : Prop :=
  ∀ (s : State) (off : Nat) (w : Width) (v : Word) (rest : List Event), s.params.Valid →
    HostNext s (.write (s.params.fmemBase + off) w v) (.host (.read (s.params.fmemBase + off) w) :: rest) →
    off % w.bytes = 0 → off + w.bytes ≤ s.params.fmemBytes →
    (∀ l k, s.latch = some l → k < w.bytes → ¬ InSource l (off + k) ∧ ¬ InDest l (off + k)) →
    ∃ t, step s = .next t ∧
      t = { s with agenda := .host (.read (s.params.fmemBase + off) w) :: rest, reply := .done, mem := t.mem } ∧
      SameOutside s.mem t.mem off w.bytes ∧
      (∀ k, k < w.bytes → Memory.read t.mem (off + k) = some (v.extractLsb' (8 * k) 8)) ∧
      ∃ n, step t = .next
        { t with
          agenda := rest
          draws := n
          reply := .data (BitVec.ofNat 32 (v.toNat % 2 ^ (8 * w.bytes))) }

/-- Whether a command runs or none does, an aligned host read of one, two or four bytes answers some word and changes nothing but the
bus answer; byte k of the word is the last value written to the byte at offset + k, if there is one, wherever that byte lies
outside the destination region of a running command, so everywhere when none runs; the bytes above the width are 0 (R61,
R62, R64, R71). Alignment by offset, the region of an illegal word and the count of free values are the model's own (logs
13, 11 and 6). -/
def Obligations.BusyReadOutsideDestinationIsCurrent : Prop :=
  ∀ (s : State) (off : Nat) (w : Width) (rest : List Event), s.params.Valid →
    HostNext s (.read (s.params.fmemBase + off) w) rest → off % w.bytes = 0 → off + w.bytes ≤ s.params.fmemBytes →
    ∃ v n, step s = .next { s with agenda := rest, reply := .data v, draws := n } ∧ v.toNat < 2 ^ (8 * w.bytes) ∧
      ∀ k b, k < w.bytes → (∀ l, s.latch = some l → ¬ InDest l (off + k)) → Memory.read s.mem (off + k) = some b →
        v.extractLsb' (8 * k) 8 = b

/-- An aligned host write of one, two or four bytes, at least one of them in the running command's source or destination region, records
HOST_RACE and marks the command; each written byte inside the regions holds some value, each outside them the value written
(R62), and nothing else changes (R64, R71, R349). That a byte in a region changes at once, the regions of an illegal word and
alignment by offset are the model's readings (logs 10, 11 and 13). -/
def Obligations.HostRaceIsRecorded : Prop :=
  ∀ (s : State) (l : Latch) (off : Nat) (w : Width) (v : Word) (rest : List Event), s.params.Valid →
    HostNext s (.write (s.params.fmemBase + off) w v) rest → off % w.bytes = 0 → off + w.bytes ≤ s.params.fmemBytes →
    s.latch = some l → (∃ k, k < w.bytes ∧ (InSource l (off + k) ∨ InDest l (off + k))) →
    ∃ t, step s = .next t ∧
      t = { s with agenda := rest, reply := .done, mem := t.mem, draws := t.draws,
                   latch := some { l with raced := true }, faults := { s.faults with hostRace := true } } ∧
      (∀ k, k < w.bytes → ∃ b, Memory.read t.mem (off + k) = some b ∧
        (¬ InSource l (off + k) → ¬ InDest l (off + k) → b = v.extractLsb' (8 * k) 8)) ∧
      SameOutside s.mem t.mem off w.bytes

/-! ### Interrupt and reset -/

/-- The interrupt line is IRQ_EN ∧ DONE at every completion: it follows IRQ_EN after one, success or error; START acceptance and a reset
lower it; START_IGNORED does not move it (R41, R305). -/
def Obligations.InterruptFollowsCompletion : Prop :=
  (∀ (i : Instr) (s : State), s.busy = true → ∃ t, exec i s = .next t ∧ t.irq = s.irqEn ∧ t.irqEn = s.irqEn) ∧
  (∀ s : State, s.acceptStart.irq = false ∧ s.resetBlock.irq = false ∧ s.assertReset.irq = false) ∧
  (∀ s : State, s.busy = true → s.startAction.irq = s.irq) ∧
  (∀ (s : State) (v : Word), v.getLsbD 1 = true → (s.writeStatus v).irq = false)

/-- After power-on and reset every register reads its value of R341, BUSY = 0, OV = 0, irq is low and no byte of frame memory has a
value (R67), for every instance (the parameters as a field of State are the model's choice, log 1). That no fault is
recorded then is the model's choice (log 15). -/
def Obligations.ResetStateReadsAsListed : Prop :=
  ∀ p : Params,
    (State.resetOf p).regValue .id = 0x52460001 ∧ (State.resetOf p).regValue .ctrl = 0 ∧
    (State.resetOf p).regValue .status = 0 ∧ (State.resetOf p).regValue .cmd = 0 ∧
    (State.resetOf p).regValue .srcBase = 0 ∧ (State.resetOf p).regValue .dstBase = 0 ∧
    (State.resetOf p).regValue .srcDim = 0 ∧ (State.resetOf p).regValue .dstDim = 0 ∧
    (State.resetOf p).regValue .orientDim = 0 ∧ (State.resetOf p).regValue .orientIndex = 0 ∧
    (State.resetOf p).regValue .orientData = 0 ∧ (State.resetOf p).regValue .cmdCount = 0 ∧
    (State.resetOf p).regValue .reserved = 0 ∧ (State.resetOf p).busy = false ∧ (State.resetOf p).irq = false ∧
    (State.resetOf p).orient.valid = false ∧ (∀ a, Memory.read (State.resetOf p).mem a = none) ∧
    (State.resetOf p).faults = ⟨false, false, false⟩

/-- A reset with no command running, soft or hard, sets every register and internal item to its reset value and changes neither frame
memory nor the fault record (R340, R341, R343, R344;
the hard reset acts at its assertion: log 15). -/
def Obligations.IdleResetClearsRegistersOnly : Prop :=
  (∀ (s : State) (v : Word) (rest : List Event), HostNext s (writeRegAccess s.params .ctrl v) rest →
    v.getLsbD 1 = true → s.busy = false →
    step s = .next { resetRegisters s with agenda := rest, reply := .done }) ∧
  (∀ (s : State) (rest : List Event), s.agenda = .assertReset :: rest → s.busy = false →
    step s = .next { resetRegisters s with agenda := rest, hardReset := true })

/-- A reset that aborts a command takes no completion step: registers as after any reset, OV = 0, CMD_COUNT = 0; each byte of the destination
region inside frame memory keeps its content or holds some byte, every other byte is unchanged, the fault record is
unchanged (R342, R343, R344). After a HOST_RACE each byte of that region inside frame memory holds some byte (R71). An illegal
latched word has no destination region, so its abort changes no byte. The cut at FMEM_BYTES, the region of an illegal word and
the hard reset acting at its assertion are the model's readings (logs 12, 11 and 15). -/
def Obligations.AbortTouchesOnlyTheDestination : Prop :=
  ∀ (s : State) (l : Latch), s.latch = some l →
    s.resetBlock = { resetRegisters s with mem := s.resetBlock.mem, draws := s.resetBlock.draws } ∧
    (∀ a, (¬ InDest l a ∨ s.params.fmemBytes ≤ a) → Memory.read s.resetBlock.mem a = Memory.read s.mem a) ∧
    (∀ a, Memory.read s.resetBlock.mem a = Memory.read s.mem a ∨ ∃ b, Memory.read s.resetBlock.mem a = some b) ∧
    (l.raced = true → ∀ a, InDest l a → a < s.params.fmemBytes → ∃ b, Memory.read s.resetBlock.mem a = some b) ∧
    (commandOf? l.cmd = none → ∀ a, Memory.read s.resetBlock.mem a = Memory.read s.mem a) ∧
    ∀ rest, s.agenda = .assertReset :: rest →
      step s = .next { { s with agenda := rest }.resetBlock with hardReset := true }

/-- Two resets in a row leave the same state as one (R340). -/
def Obligations.SecondResetChangesNothing : Prop :=
  ∀ s : State, s.resetBlock.resetBlock = s.resetBlock

/-- While the hard reset is asserted every host access is refused with BAD_ACCESS and changes nothing else; releasing it changes nothing
but the line (R340, R345;
assertion and release as events: log 15). -/
def Obligations.HardResetRefusesEveryAccess : Prop :=
  (∀ (s : State) (a : Access) (rest : List Event), s.agenda = .host a :: rest → s.hardReset = true →
    step s = .next { s with agenda := rest, faults := { s.faults with badAccess := true }, reply := .refused }) ∧
  (∀ (s : State) (rest : List Event), s.agenda = .releaseReset :: rest →
    step s = .next { s with agenda := rest, hardReset := false })

/-- A power cycle is a hard reset after which no frame memory byte has a value; the fault record stays (R315, R67, R344;
as one event: the model's choice, log 15). -/
def Obligations.PowerCycleEmptiesFrameMemory : Prop :=
  ∀ (s : State) (rest : List Event), s.agenda = .powerCycle :: rest →
    ∃ t, step s = .next t ∧ t = { resetRegisters s with agenda := rest, mem := [], hardReset := false, draws := t.draws } ∧
      ∀ a, Memory.read t.mem a = none

/-- A command mnemonic of a host script, run access by access while no command runs, starts that command with those operands and writes
IRQ_EN from the suffix; frame memory and the fault record do not change (R88). -/
def Obligations.ScriptCommandStartsWithItsOperands : Prop :=
  ∀ (s : State) (c : Command) (rest : List Event), c.wellFormed = true → s.hardReset = false → s.busy = false →
    s.agenda = expandLine s.params (.op c) ++ rest →
    ∃ t l, runFor (expandLine s.params (.op c)).length s = some t ∧ t.agenda = rest ∧ t.latch = some l ∧
      decodeWord l.cmd = .ok c.op ∧ l.src.toNat = c.src ∧ l.dst.toNat = c.dst ∧ l.w.toNat = c.w ∧ l.h.toNat = c.h ∧
      (c.op = .boxds → l.tw.toNat = c.tw ∧ l.th.toNat = c.th) ∧ t.irqEn = c.irq ∧
      t.mem = s.mem ∧ t.faults = s.faults

/-! ### Whole-machine rules -/

/-- No behaviour is stuck: from every state a step answers a next state, and the parameters do not change
(93_implementation_defined.md §3, R109). -/
def Obligations.EveryStepAnswersNext : Prop :=
  ∀ s : State, ∃ t, step s = .next t ∧ t.params = s.params

/-- The invariant of the machine is kept by every step: parameters in range, frame memory canonical and inside FMEM_BYTES, the STATUS
invariants of R24, the ORIENT buffer of R33, the snapshot inside its region, no command under hard reset. -/
def Obligations.EveryStepKeepsTheInvariant : Prop :=
  ∀ s t : State, s.Inv → step s = .next t → t.Inv

/-- The invariant holds after reset, for every instance whose parameters are in range. -/
def Obligations.ResetHasTheInvariant : Prop :=
  ∀ p : Params, p.Valid → (State.resetOf p).Inv

/-- A fault, once recorded, is never removed, not even by a reset (R42, R344). -/
def Obligations.FaultsAreNeverRemoved : Prop :=
  ∀ s t : State, step s = .next t →
    (s.faults.uninitRead = true → t.faults.uninitRead = true) ∧
    (s.faults.hostRace = true → t.faults.hostRace = true) ∧
    (s.faults.badAccess = true → t.faults.badAccess = true)

/-- A step that changes the ORIENT buffer is the completion step of a SOBEL that passes its checks, or a reset, after which OV = 0
(R33, R110, R354). -/
def Obligations.OnlySobelAndResetChangeOrient : Prop :=
  ∀ s t : State, step s = .next t → t.orient ≠ s.orient →
    (t.orient.valid = false ∧ t.latch = none ∧ t.cmdCount = 0) ∨
    (∃ l, s.latch = some l ∧ commandOf? l.cmd = some .sobel ∧ Passes s.params .sobel l ∧
      t.latch = none ∧ t.done = true ∧ t.orient.valid = true ∧ t.orient.width = l.w ∧ t.orient.height = l.h)

/-- The register CMD_COUNT reads as the count, in every state; the count changes only at a completion, by one modulo 2^32, or to 0 by a
reset; DONE rises only at a completion (R34, R24). -/
def Obligations.CmdCountCountsCompletions : Prop :=
  (∀ s : State, s.regValue .cmdCount = s.cmdCount) ∧
  ∀ s t : State, step s = .next t →
    (t.cmdCount = s.cmdCount ∧ (t.done = true → s.done = true)) ∨
    (t.cmdCount = s.cmdCount + 1 ∧ s.busy = true ∧ t.busy = false ∧ t.done = true) ∨
    (t.cmdCount = 0 ∧ t.busy = false ∧ t.done = false)

/-- A busy engine with nothing else to happen takes its completion step: BUSY falls, DONE rises, CMD_COUNT counts it; the operand registers,
IRQ_EN, START_IGNORED, the agenda and everything else but memory, ORIENT, ERR, ERR_CODE, the fault record and the count of free
values stay (R100, R106, R352; an empty agenda is the engine's turn: the model's choice, log 2). -/
def Obligations.BusyEngineCompletes : Prop :=
  ∀ (s s' : State), EngineNext s s' → s.busy = true →
    ∃ t, step s = .next t ∧ t.busy = false ∧
      t = { s' with mem := t.mem, orient := t.orient, faults := t.faults, draws := t.draws, err := t.err,
                    errCode := t.errCode, latch := none, done := true, cmdCount := s.cmdCount + 1 } ∧
      t.cmd = s.cmd ∧ t.srcBase = s.srcBase ∧ t.dstBase = s.dstBase ∧ t.srcDim = s.srcDim ∧ t.dstDim = s.dstDim ∧
      t.orientIndex = s.orientIndex ∧ t.irqEn = s.irqEn ∧ t.startIgnored = s.startIgnored ∧ t.params = s.params

/-- A command that runs before a step runs after it unchanged, but for the mark of a HOST_RACE, or the step completed it or a reset aborted
it; and a command that runs after a step in which none ran was accepted in it (R36, R68, R342). -/
def Obligations.RunningCommandIsNeverReplaced : Prop :=
  ∀ s t : State, step s = .next t →
    (∀ l, s.latch = some l →
      t.latch = some l ∨ t.latch = some { l with raced := true } ∨ (t.latch = none ∧ (t.done = true ∨ t.cmdCount = 0))) ∧
    (∀ l, s.latch = none → t.latch = some l →
      l.cmd = s.cmd ∧ l.src = s.srcBase ∧ l.dst = s.dstBase ∧ t.done = false ∧ t.err = false ∧ t.errCode = 0)

/-- `WAIT` with a command running takes its completion step and then reads STATUS, with BUSY = 0 and DONE = 1, in two steps; `WAIT` with
none running reads STATUS at once; the answer is the STATUS word and the read changes nothing else (R87, R347). The polls in
between, and that a WAIT while the hard reset is asserted ends with its read refused, are the model's readings (log 16). -/
def Obligations.WaitEndsWithBusyClear : Prop :=
  ∀ (s : State) (rest : List Event), s.agenda = .wait :: rest →
    (s.busy = true → s.hardReset = false →
      ∃ t, step s = .next t ∧ t.busy = false ∧
        t = { s with mem := t.mem, orient := t.orient, faults := t.faults, draws := t.draws, err := t.err,
                     errCode := t.errCode, latch := none, done := true, cmdCount := s.cmdCount + 1 } ∧
        step t = .next { t with agenda := rest, reply := .data (t.regValue .status) } ∧
        (t.regValue .status).getLsbD 0 = false ∧ (t.regValue .status).getLsbD 1 = true) ∧
    (s.busy = false → s.hardReset = false →
      step s = .next { s with agenda := rest, reply := .data (s.regValue .status) } ∧
        (s.regValue .status).getLsbD 0 = false) ∧
    (s.busy = false → s.hardReset = true →
      step s = .next { s with agenda := rest, faults := { s.faults with badAccess := true }, reply := .refused })

/-! ### Arithmetic of the units -/

/-- The magnitude in integers: for n = gx² + gy² ≥ 1, the integer m with m² − m < n ≤ m² + m, clamped to 255, and the clamp applies
exactly when n > 65280; the square root never lies halfway between two integers (R143, derived there from R142). For n = 0
the inequality of R143 has no solution and the magnitude is 0 by R142: the model's reading (log 24). -/
def Obligations.MagnitudeIsTheRoundedRoot : Prop :=
  ∀ g : Grad,
    (∀ k : ℤ, Real.sqrt (g.normSq : ℝ) ≠ k + 1 / 2) ∧
    (g.normSq : ℤ) = g.gx * g.gx + g.gy * g.gy ∧
    (1 ≤ g.normSq → ∃ m : ℤ, 1 ≤ m ∧ m * m - m < g.normSq ∧ (g.normSq : ℤ) ≤ m * m + m ∧
      (magnitude g : ℤ) = min 255 m ∧ (255 < m ↔ 65280 < g.normSq)) ∧
    (g.normSq = 0 → magnitude g = 0)

/-- The integer sector test agrees with the angle θ' = atan2(gy, gx), plus π when negative, and the four half-open sectors of the source,
for every integer pair; a pair and its negation fall in the same sector (R162, derived there). The angle is Mathlib's
Complex.arg: the model's reading (log 24). -/
def Obligations.SectorIsTheAngleBucket : Prop :=
  (∀ (g : Grad) (k : Sector), sector g = k ↔ InSector (foldedAngle g) k) ∧
  ∀ g : Grad, sector ⟨-g.gx, -g.gy⟩ = sector g

/-- LOW_T and HIGH_T of this hardware are the source's constants: V = floor(sqrt(255² × 1.75)) = 337, LOW_T = floor(V × 0.5) = 168,
HIGH_T = floor(V × 0.3) = 101 (R180, derived there from the source's formula). -/
def Obligations.ThresholdConstantsComeFromTheFormula : Prop :=
  ∀ V : Nat, 4 * (V * V) ≤ 7 * (255 * 255) → 7 * (255 * 255) < 4 * ((V + 1) * (V + 1)) →
    V = 337 ∧ Literals.source.lowT = V * 5 / 10 ∧ Literals.source.highT = V * 3 / 10 ∧
      Literals.source.lowT = 168 ∧ Literals.source.highT = 101

/-- For any two thresholds the class is 0, 1 or 255 and does not fall as the sample rises (R184, derived there); with the constants of
this hardware it is 0 up to 168 and 255 from 169 on (R182, derived there). -/
def Obligations.ClassIsMonotonic : Prop :=
  (∀ low high p p' : Nat, p ≤ p' → pixelClass low high p ≤ pixelClass low high p') ∧
  (∀ low high p : Nat, pixelClass low high p = 0 ∨ pixelClass low high p = 1 ∨ pixelClass low high p = 255) ∧
  (∀ p : Nat, pixelClass Literals.source.lowT Literals.source.highT p = if p ≤ 168 then 0 else 255)

/-- HYST run on its own output changes nothing (R205). -/
def Obligations.HystIsIdempotent : Prop :=
  ∀ (w h : Nat) (S : Plane) (r c : Nat), hystPixel w h (hystPixel w h S) r c = hystPixel w h S r c

/-- quant(v) is one of the 16 levels, FS_STEP times 0 to 15; no level is nearer to v, and of two nearest levels it is the upper (R242 for
FS_STEP = 17, the value of this hardware). That the same holds for every FS_STEP of at least 1 is the model's choice (log 25).
Values are counted in units of 2^-149. -/
def Obligations.QuantIsTheNearestLevel : Prop :=
  Literals.source.fsStep = 17 ∧
  ∀ (step : Nat) (v : F32), 1 ≤ step → ∃ k : Nat, k ≤ 15 ∧ quant step v = step * k ∧
    ∀ k' : Nat, k' ≤ 15 →
      |v.units - step * k * 2 ^ 149| ≤ |v.units - step * k' * 2 ^ 149| ∧
      (|v.units - step * k * 2 ^ 149| = |v.units - step * k' * 2 ^ 149| → k' ≤ k)

/-- With every value counted in units of 2^-149: fl32(n·2^-(149+j)) is the binary32 value nearest to that real, of two nearest the even
one, with subnormal values; a ⊕ b, a ⊖ b and a ⊗ b are the exact sum, difference and product rounded so; the integer k and the
weight k/16 are k·2^149 and k·2^145 units (R9, R241; the upper bound of binary32 is not modelled, log 17). -/
def Obligations.Fl32IsNearestTiesToEven : Prop :=
  (∀ (n : ℤ) (j : Nat), IsRounding n j (fl32 n j).units) ∧
  (∀ a b : F32,
    IsRounding (a.units + b.units) 0 (a.add b).units ∧
    IsRounding (a.units - b.units) 0 (a.sub b).units ∧
    IsRounding (a.units * b.units) 149 (a.mul b).units) ∧
  ∀ k : Nat, (F32.ofNat k).units = (k : ℤ) * 2 ^ 149 ∧ (F32.sixteenths k).units = (k : ℤ) * 2 ^ 145

/-- In FSDITH the subtraction e = v ⊖ q is exact for every binary32 v up to twice the top level, which is 510 for FS_STEP = 17 (R243,
derived there; R108 puts every field value within a few ulp of -8.5 to 263.5). That FS_STEP may have any other value whose
levels fit a sample is the model's choice (log 25). -/
def Obligations.ErrorSubtractionIsExact : Prop :=
  ∀ (step : Nat) (v : F32), 1 ≤ step → 15 * step ≤ 255 → Representable v.units →
    v.units ≤ 30 * step * 2 ^ 149 →
    (v.sub (whole (quant step v))).units = v.units - quant step v * 2 ^ 149

/-- Each BOXDS output lies between the smallest and the largest sample of its block, so a uniform source gives a uniform destination (R264). -/
def Obligations.BoxAverageLiesWithinItsBlock : Prop :=
  ∀ (bh bw i j lo hi : Nat) (S : Plane), 0 < bh → 0 < bw →
    (∀ a b, a < bh → b < bw → lo ≤ S (i * bh + a) (j * bw + b) ∧ S (i * bh + a) (j * bw + b) ≤ hi) →
    lo ≤ boxPixel bh bw S i j ∧ boxPixel bh bw S i j ≤ hi
end

