-- ==== Sys2Proof/Laws/Arith.lean ====
section
/-! SUPPORT. The laws of the integer square root and of its rounding (42_sobel_gradient.md R142, R143). -/

namespace Sys2Proof.Machine

theorem isqrtBits_spec (b n r : Nat) (h1 : r * r ≤ n) (h2 : n < (r + 2 ^ b) * (r + 2 ^ b)) :
    isqrtBits b n r * isqrtBits b n r ≤ n ∧ n < (isqrtBits b n r + 1) * (isqrtBits b n r + 1) := by
  induction b generalizing r with
  | zero => exact ⟨h1, h2⟩
  | succ b ih =>
    have e : 2 ^ (b + 1) = 2 ^ b + 2 ^ b := by
      rw [Nat.pow_succ]
      omega
    simp only [isqrtBits]
    split
    · refine ih _ ‹_› ?_
      rw [e, ← Nat.add_assoc] at h2
      exact h2
    · exact ih _ h1 (by omega)

/-- `isqrt n` is the greatest m with m² ≤ n. -/
theorem isqrt_spec (n : Nat) : isqrt n * isqrt n ≤ n ∧ n < (isqrt n + 1) * (isqrt n + 1) := by
  refine isqrtBits_spec _ n 0 (Nat.zero_le n) ?_
  rw [Nat.zero_add, ← Nat.pow_add]
  exact lt_of_lt_of_le Nat.lt_log2_self (Nat.pow_le_pow_right (by decide) (by omega))

@[simp] theorem roundSqrt_zero : roundSqrt 0 = 0 := by decide

/-- `roundSqrt n` is within a half of the square root of n. -/
theorem roundSqrt_spec (n : Nat) : roundSqrt n * roundSqrt n ≤ n + roundSqrt n ∧
    n ≤ roundSqrt n * roundSqrt n + roundSqrt n ∧ (1 ≤ n → roundSqrt n * roundSqrt n < n + roundSqrt n) := by
  obtain ⟨h1, h2⟩ := isqrt_spec n
  unfold roundSqrt
  generalize isqrt n = m at *
  split
  · refine ⟨by omega, by omega, fun h => ?_⟩
    rcases Nat.eq_zero_or_pos m with rfl | hm <;> omega
  · refine ⟨?_, ?_, fun _ => ?_⟩ <;> nlinarith

end Sys2Proof.Machine
end

