-- ==== Sys2Proof/Laws/Memory.lean ====
section
/-! SUPPORT. The laws of frame memory: a read after a write, the canonical form kept by every operation, and equal reads of
canonical memories meaning equal memories. -/

namespace Sys2Proof.Machine

@[simp] theorem Memory.read_nil (a : Nat) : Memory.read [] a = none := rfl

theorem Memory.read_cons (x : Nat) (v : Byte) (m : Memory) (a : Nat) :
    Memory.read ((x, v) :: m) a = if a = x then some v else Memory.read m a := rfl

@[simp] theorem Memory.read_write_same (m : Memory) (a : Nat) (b : Byte) :
    Memory.read (Memory.write m a b) a = some b := by
  induction m with
  | nil => simp [Memory.write, Memory.read]
  | cons c m ih =>
    obtain ⟨x, v⟩ := c
    simp only [Memory.write]
    split
    · simp [Memory.read]
    · split
      · simp [Memory.read]
      · simp [Memory.read, *]

theorem Memory.read_write_other (m : Memory) {a x : Nat} (b : Byte) (h : x ≠ a) :
    Memory.read (Memory.write m a b) x = Memory.read m x := by
  induction m with
  | nil => simp [Memory.write, Memory.read, h, Memory.unlisted]
  | cons c m ih =>
    obtain ⟨y, v⟩ := c
    simp only [Memory.write]
    split
    · simp [Memory.read, h]
    · split
      · rename_i h1 h2
        subst h2
        simp [Memory.read, h]
      · simp only [Memory.read]
        split <;> simp_all

theorem Memory.read_write (m : Memory) (a x : Nat) (b : Byte) :
    Memory.read (Memory.write m a b) x = if x = a then some b else Memory.read m x := by
  split
  · subst_vars
    exact Memory.read_write_same m _ b
  · exact Memory.read_write_other m b ‹_›

/-- A block write leaves every offset outside it alone. -/
theorem Memory.read_store_outside (bs : List (Option Byte)) (m : Memory) (a x : Nat)
    (h : x < a ∨ a + bs.length ≤ x) : Memory.read (Memory.store m a bs) x = Memory.read m x := by
  induction bs generalizing m a with
  | nil => rfl
  | cons o bs ih =>
    simp only [List.length_cons] at h
    cases o with
    | none => exact ih m (a + 1) (by omega)
    | some b =>
      simp only [Memory.store]
      rw [ih _ (a + 1) (by omega), Memory.read_write_other m b (by omega)]

/-- Inside the block each offset holds its entry, or its old content where the entry is none. -/
theorem Memory.read_store_inside (bs : List (Option Byte)) (m : Memory) (a k : Nat) (h : k < bs.length) :
    Memory.read (Memory.store m a bs) (a + k) = (bs[k]).orElse fun _ => Memory.read m (a + k) := by
  induction bs generalizing m a k with
  | nil => simp at h
  | cons o bs ih =>
    cases k with
    | zero =>
      cases o with
      | none =>
        simp only [Memory.store, Nat.add_zero, List.getElem_cons_zero, Option.orElse_none]
        exact Memory.read_store_outside bs m (a + 1) a (by omega)
      | some b =>
        simp only [Memory.store, Nat.add_zero, List.getElem_cons_zero, Option.orElse_some]
        rw [Memory.read_store_outside bs _ (a + 1) a (by omega), Memory.read_write_same]
    | succ k =>
      have hk : k < bs.length := by simpa using h
      have e : a + (k + 1) = a + 1 + k := by omega
      cases o with
      | none => simpa [Memory.store, e] using ih m (a + 1) k hk
      | some b =>
        have := ih (Memory.write m a b) (a + 1) k hk
        rw [Memory.read_write_other m b (show a + 1 + k ≠ a by omega)] at this
        simpa [Memory.store, e] using this

theorem Memory.read_storeBytes_outside (m : Memory) (a x : Nat) (bs : List Byte)
    (h : x < a ∨ a + bs.length ≤ x) : Memory.read (Memory.storeBytes m a bs) x = Memory.read m x :=
  Memory.read_store_outside _ m a x (by simpa using h)

theorem Memory.read_storeBytes_inside (m : Memory) (a k : Nat) (bs : List Byte) (h : k < bs.length) :
    Memory.read (Memory.storeBytes m a bs) (a + k) = some bs[k] := by
  have := Memory.read_store_inside (bs.map some) m a k (by simpa using h)
  simpa [Memory.storeBytes] using this

/-- The slice reads as the memory inside its region, and holds nothing outside. -/
theorem Memory.read_slice (m : Memory) (a n x : Nat) :
    Memory.read (Memory.slice m a n) x = if a ≤ x ∧ x < a + n then Memory.read m x else none := by
  induction m with
  | nil => simp [Memory.slice]
  | cons c m ih =>
    obtain ⟨y, v⟩ := c
    simp only [Memory.slice, List.filter_cons] at ih ⊢
    by_cases hy : a ≤ y ∧ y < a + n
    · simp only [hy, decide_true, Bool.and_self, if_true, Memory.read, ih]
      split <;> simp_all
    · have : (decide (a ≤ y) && decide (y < a + n)) = false := by simpa using hy
      simp only [this, Bool.false_eq_true, if_false, ih, Memory.read]
      split
      · split
        · subst_vars
          exact absurd ‹_› hy
        · rfl
      · rfl

/-- Every offset a write lists was listed before, or is the one written. -/
theorem Memory.mem_write {m : Memory} {a : Nat} {b : Byte} {c : Host.Cell} (h : c ∈ Memory.write m a b) :
    c = (a, b) ∨ c ∈ m := by
  induction m with
  | nil => simpa [Memory.write] using h
  | cons d m ih =>
    obtain ⟨x, v⟩ := d
    simp only [Memory.write] at h
    split at h
    · simpa using h
    · split at h
      · rcases List.mem_cons.1 h with h | h
        · exact .inl h
        · exact .inr (List.mem_cons_of_mem _ h)
      · rcases List.mem_cons.1 h with h | h
        · exact .inr (h ▸ List.mem_cons_self)
        · exact (ih h).imp id (List.mem_cons_of_mem _)

/-- A write keeps the canonical form. -/
theorem Memory.write_wf {m : Memory} (h : Memory.wf m) (a : Nat) (b : Byte) : Memory.wf (Memory.write m a b) := by
  induction m with
  | nil => simp [Memory.write, Memory.wf]
  | cons d m ih =>
    obtain ⟨x, v⟩ := d
    obtain ⟨h1, h2⟩ := List.pairwise_cons.1 h
    simp only [Memory.write]
    split
    · refine List.pairwise_cons.2 ⟨fun c hc => ?_, h⟩
      rcases List.mem_cons.1 hc with rfl | hc
      · assumption
      · exact lt_trans ‹_› (h1 c hc)
    · split
      · subst_vars
        exact List.pairwise_cons.2 ⟨h1, h2⟩
      · refine List.pairwise_cons.2 ⟨fun c hc => ?_, ih h2⟩
        rcases Memory.mem_write hc with rfl | hc
        · show x < a
          omega
        · exact h1 c hc

theorem Memory.write_below {m : Memory} {n : Nat} (h : Memory.below m n) {a : Nat} (ha : a < n) (b : Byte) :
    Memory.below (Memory.write m a b) n := by
  intro c hc
  rcases Memory.mem_write hc with rfl | hc
  · exact ha
  · exact h c hc

/-- A block write keeps the canonical form. -/
theorem Memory.store_wf (bs : List (Option Byte)) {m : Memory} (h : Memory.wf m) (a : Nat) :
    Memory.wf (Memory.store m a bs) := by
  induction bs generalizing m a with
  | nil => exact h
  | cons o bs ih =>
    cases o with
    | none => exact ih h (a + 1)
    | some b => exact ih (Memory.write_wf h a b) (a + 1)

/-- A block write that lies below `n` keeps memory below `n`. -/
theorem Memory.store_below (bs : List (Option Byte)) {m : Memory} {n : Nat} (h : Memory.below m n) (a : Nat)
    (ha : bs = [] ∨ a + bs.length ≤ n) : Memory.below (Memory.store m a bs) n := by
  induction bs generalizing m a with
  | nil => exact h
  | cons o bs ih =>
    simp only [List.length_cons, reduceCtorEq, false_or] at ha
    cases o with
    | none => exact ih h (a + 1) (.inr (by omega))
    | some b => exact ih (Memory.write_below h (by omega) b) (a + 1) (.inr (by omega))

theorem Memory.storeBytes_wf {m : Memory} (h : Memory.wf m) (a : Nat) (bs : List Byte) :
    Memory.wf (Memory.storeBytes m a bs) := Memory.store_wf _ h a

theorem Memory.storeBytes_below {m : Memory} {n : Nat} (h : Memory.below m n) (a : Nat) (bs : List Byte)
    (ha : a + bs.length ≤ n) : Memory.below (Memory.storeBytes m a bs) n :=
  Memory.store_below _ h a (.inr (by simpa using ha))

/-- A slice keeps the canonical form. -/
theorem Memory.slice_wf {m : Memory} (h : Memory.wf m) (a n : Nat) : Memory.wf (Memory.slice m a n) :=
  List.Pairwise.filter _ h

/-- A slice lists offsets of its region only. -/
theorem Memory.mem_slice {m : Memory} {a n : Nat} {c : Host.Cell} (h : c ∈ Memory.slice m a n) :
    a ≤ c.1 ∧ c.1 < a + n := by
  simpa [Memory.slice] using (List.mem_filter.1 h).2

/-- An offset below every listed one holds no value. -/
theorem Memory.read_none_of_lt {m : Memory} {a : Nat} (h : ∀ c ∈ m, a < c.1) : Memory.read m a = none := by
  induction m with
  | nil => rfl
  | cons c m ih =>
    obtain ⟨x, v⟩ := c
    have hx : a < x := h (x, v) List.mem_cons_self
    rw [Memory.read_cons, if_neg (by omega)]
    exact ih fun c hc => h c (List.mem_cons_of_mem _ hc)

/-- Canonical memories that read alike are equal. -/
theorem Memory.ext_of_read {m m' : Memory} (h : Memory.wf m) (h' : Memory.wf m')
    (hr : ∀ a, Memory.read m a = Memory.read m' a) : m = m' := by
  induction m generalizing m' with
  | nil =>
    cases m' with
    | nil => rfl
    | cons c m' =>
      obtain ⟨x, v⟩ := c
      have := hr x
      simp [Memory.read_cons] at this
  | cons c m ih =>
    obtain ⟨x, v⟩ := c
    obtain ⟨h1, h2⟩ := List.pairwise_cons.1 h
    cases m' with
    | nil =>
      have := hr x
      simp [Memory.read_cons] at this
    | cons d m' =>
      obtain ⟨y, w⟩ := d
      obtain ⟨h1', h2'⟩ := List.pairwise_cons.1 h'
      have hx := hr x
      have hy := hr y
      have hxy : x = y := by
        rcases lt_trichotomy x y with hlt | heq | hlt
        · rw [Memory.read_cons, if_pos rfl, Memory.read_cons, if_neg (by omega),
            Memory.read_none_of_lt fun c hc => lt_trans hlt (h1' c hc)] at hx
          cases hx
        · exact heq
        · rw [Memory.read_cons y w, if_pos rfl, Memory.read_cons, if_neg (by omega),
            Memory.read_none_of_lt fun c hc => lt_trans hlt (h1 c hc)] at hy
          cases hy
      subst hxy
      have hv : v = w := by simpa [Memory.read_cons] using hx
      subst hv
      congr 1
      refine ih h2 h2' fun a => ?_
      by_cases ha : a = x
      · rw [ha, Memory.read_none_of_lt h1, Memory.read_none_of_lt h1']
      · simpa [Memory.read_cons, ha] using hr a

end Sys2Proof.Machine
end

