-- ==== Sys2Proof/Laws/State.lean ====
section
/-! SUPPORT. What each named update of the state leaves in each field: one lemma for each field and update, true by rfl. -/

namespace Sys2Proof.Machine

/-! ### clearCompletion -/

@[simp] theorem State.clearCompletion_params (s : State) : s.clearCompletion.params = s.params := rfl
@[simp] theorem State.clearCompletion_irqEn (s : State) : s.clearCompletion.irqEn = s.irqEn := rfl
@[simp] theorem State.clearCompletion_done (s : State) : s.clearCompletion.done = false := rfl
@[simp] theorem State.clearCompletion_err (s : State) : s.clearCompletion.err = false := rfl
@[simp] theorem State.clearCompletion_startIgnored (s : State) :
    s.clearCompletion.startIgnored = s.startIgnored := rfl
@[simp] theorem State.clearCompletion_errCode (s : State) : s.clearCompletion.errCode = 0 := rfl
@[simp] theorem State.clearCompletion_cmd (s : State) : s.clearCompletion.cmd = s.cmd := rfl
@[simp] theorem State.clearCompletion_srcBase (s : State) : s.clearCompletion.srcBase = s.srcBase := rfl
@[simp] theorem State.clearCompletion_dstBase (s : State) : s.clearCompletion.dstBase = s.dstBase := rfl
@[simp] theorem State.clearCompletion_srcDim (s : State) : s.clearCompletion.srcDim = s.srcDim := rfl
@[simp] theorem State.clearCompletion_dstDim (s : State) : s.clearCompletion.dstDim = s.dstDim := rfl
@[simp] theorem State.clearCompletion_orientIndex (s : State) : s.clearCompletion.orientIndex = s.orientIndex := rfl
@[simp] theorem State.clearCompletion_cmdCount (s : State) : s.clearCompletion.cmdCount = s.cmdCount := rfl
@[simp] theorem State.clearCompletion_orient (s : State) : s.clearCompletion.orient = s.orient := rfl
@[simp] theorem State.clearCompletion_latch (s : State) : s.clearCompletion.latch = s.latch := rfl
@[simp] theorem State.clearCompletion_mem (s : State) : s.clearCompletion.mem = s.mem := rfl
@[simp] theorem State.clearCompletion_faults (s : State) : s.clearCompletion.faults = s.faults := rfl
@[simp] theorem State.clearCompletion_hardReset (s : State) : s.clearCompletion.hardReset = s.hardReset := rfl
@[simp] theorem State.clearCompletion_agenda (s : State) : s.clearCompletion.agenda = s.agenda := rfl
@[simp] theorem State.clearCompletion_reply (s : State) : s.clearCompletion.reply = s.reply := rfl
@[simp] theorem State.clearCompletion_draws (s : State) : s.clearCompletion.draws = s.draws := rfl

/-! ### ignoreStart -/

@[simp] theorem State.ignoreStart_params (s : State) : s.ignoreStart.params = s.params := rfl
@[simp] theorem State.ignoreStart_irqEn (s : State) : s.ignoreStart.irqEn = s.irqEn := rfl
@[simp] theorem State.ignoreStart_done (s : State) : s.ignoreStart.done = s.done := rfl
@[simp] theorem State.ignoreStart_err (s : State) : s.ignoreStart.err = s.err := rfl
@[simp] theorem State.ignoreStart_startIgnored (s : State) : s.ignoreStart.startIgnored = true := rfl
@[simp] theorem State.ignoreStart_errCode (s : State) : s.ignoreStart.errCode = s.errCode := rfl
@[simp] theorem State.ignoreStart_cmd (s : State) : s.ignoreStart.cmd = s.cmd := rfl
@[simp] theorem State.ignoreStart_srcBase (s : State) : s.ignoreStart.srcBase = s.srcBase := rfl
@[simp] theorem State.ignoreStart_dstBase (s : State) : s.ignoreStart.dstBase = s.dstBase := rfl
@[simp] theorem State.ignoreStart_srcDim (s : State) : s.ignoreStart.srcDim = s.srcDim := rfl
@[simp] theorem State.ignoreStart_dstDim (s : State) : s.ignoreStart.dstDim = s.dstDim := rfl
@[simp] theorem State.ignoreStart_orientIndex (s : State) : s.ignoreStart.orientIndex = s.orientIndex := rfl
@[simp] theorem State.ignoreStart_cmdCount (s : State) : s.ignoreStart.cmdCount = s.cmdCount := rfl
@[simp] theorem State.ignoreStart_orient (s : State) : s.ignoreStart.orient = s.orient := rfl
@[simp] theorem State.ignoreStart_latch (s : State) : s.ignoreStart.latch = s.latch := rfl
@[simp] theorem State.ignoreStart_mem (s : State) : s.ignoreStart.mem = s.mem := rfl
@[simp] theorem State.ignoreStart_faults (s : State) : s.ignoreStart.faults = s.faults := rfl
@[simp] theorem State.ignoreStart_hardReset (s : State) : s.ignoreStart.hardReset = s.hardReset := rfl
@[simp] theorem State.ignoreStart_agenda (s : State) : s.ignoreStart.agenda = s.agenda := rfl
@[simp] theorem State.ignoreStart_reply (s : State) : s.ignoreStart.reply = s.reply := rfl
@[simp] theorem State.ignoreStart_draws (s : State) : s.ignoreStart.draws = s.draws := rfl

/-! ### writeStatus -/

@[simp] theorem State.writeStatus_params (s : State) (v : Word) : (s.writeStatus v).params = s.params := rfl
@[simp] theorem State.writeStatus_irqEn (s : State) (v : Word) : (s.writeStatus v).irqEn = s.irqEn := rfl
@[simp] theorem State.writeStatus_done (s : State) (v : Word) :
    (s.writeStatus v).done = (s.done && !v.getLsbD 1) := rfl
@[simp] theorem State.writeStatus_err (s : State) (v : Word) : (s.writeStatus v).err = (s.err && !v.getLsbD 2) := rfl
@[simp] theorem State.writeStatus_startIgnored (s : State) (v : Word) :
    (s.writeStatus v).startIgnored = (s.startIgnored && !v.getLsbD 4) := rfl
@[simp] theorem State.writeStatus_errCode (s : State) (v : Word) :
    (s.writeStatus v).errCode = (if v.getLsbD 2 then 0 else s.errCode) := rfl
@[simp] theorem State.writeStatus_cmd (s : State) (v : Word) : (s.writeStatus v).cmd = s.cmd := rfl
@[simp] theorem State.writeStatus_srcBase (s : State) (v : Word) : (s.writeStatus v).srcBase = s.srcBase := rfl
@[simp] theorem State.writeStatus_dstBase (s : State) (v : Word) : (s.writeStatus v).dstBase = s.dstBase := rfl
@[simp] theorem State.writeStatus_srcDim (s : State) (v : Word) : (s.writeStatus v).srcDim = s.srcDim := rfl
@[simp] theorem State.writeStatus_dstDim (s : State) (v : Word) : (s.writeStatus v).dstDim = s.dstDim := rfl
@[simp] theorem State.writeStatus_orientIndex (s : State) (v : Word) :
    (s.writeStatus v).orientIndex = s.orientIndex := rfl
@[simp] theorem State.writeStatus_cmdCount (s : State) (v : Word) : (s.writeStatus v).cmdCount = s.cmdCount := rfl
@[simp] theorem State.writeStatus_orient (s : State) (v : Word) : (s.writeStatus v).orient = s.orient := rfl
@[simp] theorem State.writeStatus_latch (s : State) (v : Word) : (s.writeStatus v).latch = s.latch := rfl
@[simp] theorem State.writeStatus_mem (s : State) (v : Word) : (s.writeStatus v).mem = s.mem := rfl
@[simp] theorem State.writeStatus_faults (s : State) (v : Word) : (s.writeStatus v).faults = s.faults := rfl
@[simp] theorem State.writeStatus_hardReset (s : State) (v : Word) : (s.writeStatus v).hardReset = s.hardReset := rfl
@[simp] theorem State.writeStatus_agenda (s : State) (v : Word) : (s.writeStatus v).agenda = s.agenda := rfl
@[simp] theorem State.writeStatus_reply (s : State) (v : Word) : (s.writeStatus v).reply = s.reply := rfl
@[simp] theorem State.writeStatus_draws (s : State) (v : Word) : (s.writeStatus v).draws = s.draws := rfl

/-! ### refuseAccess -/

@[simp] theorem State.refuseAccess_params (s : State) : s.refuseAccess.params = s.params := rfl
@[simp] theorem State.refuseAccess_irqEn (s : State) : s.refuseAccess.irqEn = s.irqEn := rfl
@[simp] theorem State.refuseAccess_done (s : State) : s.refuseAccess.done = s.done := rfl
@[simp] theorem State.refuseAccess_err (s : State) : s.refuseAccess.err = s.err := rfl
@[simp] theorem State.refuseAccess_startIgnored (s : State) : s.refuseAccess.startIgnored = s.startIgnored := rfl
@[simp] theorem State.refuseAccess_errCode (s : State) : s.refuseAccess.errCode = s.errCode := rfl
@[simp] theorem State.refuseAccess_cmd (s : State) : s.refuseAccess.cmd = s.cmd := rfl
@[simp] theorem State.refuseAccess_srcBase (s : State) : s.refuseAccess.srcBase = s.srcBase := rfl
@[simp] theorem State.refuseAccess_dstBase (s : State) : s.refuseAccess.dstBase = s.dstBase := rfl
@[simp] theorem State.refuseAccess_srcDim (s : State) : s.refuseAccess.srcDim = s.srcDim := rfl
@[simp] theorem State.refuseAccess_dstDim (s : State) : s.refuseAccess.dstDim = s.dstDim := rfl
@[simp] theorem State.refuseAccess_orientIndex (s : State) : s.refuseAccess.orientIndex = s.orientIndex := rfl
@[simp] theorem State.refuseAccess_cmdCount (s : State) : s.refuseAccess.cmdCount = s.cmdCount := rfl
@[simp] theorem State.refuseAccess_orient (s : State) : s.refuseAccess.orient = s.orient := rfl
@[simp] theorem State.refuseAccess_latch (s : State) : s.refuseAccess.latch = s.latch := rfl
@[simp] theorem State.refuseAccess_mem (s : State) : s.refuseAccess.mem = s.mem := rfl
@[simp] theorem State.refuseAccess_faults (s : State) :
    s.refuseAccess.faults = { s.faults with badAccess := true } := rfl
@[simp] theorem State.refuseAccess_hardReset (s : State) : s.refuseAccess.hardReset = s.hardReset := rfl
@[simp] theorem State.refuseAccess_agenda (s : State) : s.refuseAccess.agenda = s.agenda := rfl
@[simp] theorem State.refuseAccess_reply (s : State) : s.refuseAccess.reply = .refused := rfl
@[simp] theorem State.refuseAccess_draws (s : State) : s.refuseAccess.draws = s.draws := rfl

/-! ### acceptStart -/

@[simp] theorem State.acceptStart_params (s : State) : s.acceptStart.params = s.params := rfl
@[simp] theorem State.acceptStart_irqEn (s : State) : s.acceptStart.irqEn = s.irqEn := rfl
@[simp] theorem State.acceptStart_done (s : State) : s.acceptStart.done = false := rfl
@[simp] theorem State.acceptStart_err (s : State) : s.acceptStart.err = false := rfl
@[simp] theorem State.acceptStart_startIgnored (s : State) : s.acceptStart.startIgnored = s.startIgnored := rfl
@[simp] theorem State.acceptStart_errCode (s : State) : s.acceptStart.errCode = 0 := rfl
@[simp] theorem State.acceptStart_cmd (s : State) : s.acceptStart.cmd = s.cmd := rfl
@[simp] theorem State.acceptStart_srcBase (s : State) : s.acceptStart.srcBase = s.srcBase := rfl
@[simp] theorem State.acceptStart_dstBase (s : State) : s.acceptStart.dstBase = s.dstBase := rfl
@[simp] theorem State.acceptStart_srcDim (s : State) : s.acceptStart.srcDim = s.srcDim := rfl
@[simp] theorem State.acceptStart_dstDim (s : State) : s.acceptStart.dstDim = s.dstDim := rfl
@[simp] theorem State.acceptStart_orientIndex (s : State) : s.acceptStart.orientIndex = s.orientIndex := rfl
@[simp] theorem State.acceptStart_cmdCount (s : State) : s.acceptStart.cmdCount = s.cmdCount := rfl
@[simp] theorem State.acceptStart_orient (s : State) : s.acceptStart.orient = s.orient := rfl
@[simp] theorem State.acceptStart_latch (s : State) : s.acceptStart.latch = some s.latchCommand := rfl
@[simp] theorem State.acceptStart_mem (s : State) : s.acceptStart.mem = s.mem := rfl
@[simp] theorem State.acceptStart_faults (s : State) : s.acceptStart.faults = s.faults := rfl
@[simp] theorem State.acceptStart_hardReset (s : State) : s.acceptStart.hardReset = s.hardReset := rfl
@[simp] theorem State.acceptStart_agenda (s : State) : s.acceptStart.agenda = s.agenda := rfl
@[simp] theorem State.acceptStart_reply (s : State) : s.acceptStart.reply = s.reply := rfl
@[simp] theorem State.acceptStart_draws (s : State) : s.acceptStart.draws = s.draws := rfl

/-! ### raiseCmdError -/

@[simp] theorem State.raiseCmdError_params (s : State) (e : CmdError) : (s.raiseCmdError e).params = s.params := rfl
@[simp] theorem State.raiseCmdError_irqEn (s : State) (e : CmdError) : (s.raiseCmdError e).irqEn = s.irqEn := rfl
@[simp] theorem State.raiseCmdError_done (s : State) (e : CmdError) : (s.raiseCmdError e).done = s.done := rfl
@[simp] theorem State.raiseCmdError_err (s : State) (e : CmdError) : (s.raiseCmdError e).err = true := rfl
@[simp] theorem State.raiseCmdError_startIgnored (s : State) (e : CmdError) :
    (s.raiseCmdError e).startIgnored = s.startIgnored := rfl
@[simp] theorem State.raiseCmdError_errCode (s : State) (e : CmdError) : (s.raiseCmdError e).errCode = e.code := rfl
@[simp] theorem State.raiseCmdError_cmd (s : State) (e : CmdError) : (s.raiseCmdError e).cmd = s.cmd := rfl
@[simp] theorem State.raiseCmdError_srcBase (s : State) (e : CmdError) :
    (s.raiseCmdError e).srcBase = s.srcBase := rfl
@[simp] theorem State.raiseCmdError_dstBase (s : State) (e : CmdError) :
    (s.raiseCmdError e).dstBase = s.dstBase := rfl
@[simp] theorem State.raiseCmdError_srcDim (s : State) (e : CmdError) : (s.raiseCmdError e).srcDim = s.srcDim := rfl
@[simp] theorem State.raiseCmdError_dstDim (s : State) (e : CmdError) : (s.raiseCmdError e).dstDim = s.dstDim := rfl
@[simp] theorem State.raiseCmdError_orientIndex (s : State) (e : CmdError) :
    (s.raiseCmdError e).orientIndex = s.orientIndex := rfl
@[simp] theorem State.raiseCmdError_cmdCount (s : State) (e : CmdError) :
    (s.raiseCmdError e).cmdCount = s.cmdCount := rfl
@[simp] theorem State.raiseCmdError_orient (s : State) (e : CmdError) : (s.raiseCmdError e).orient = s.orient := rfl
@[simp] theorem State.raiseCmdError_latch (s : State) (e : CmdError) : (s.raiseCmdError e).latch = s.latch := rfl
@[simp] theorem State.raiseCmdError_mem (s : State) (e : CmdError) : (s.raiseCmdError e).mem = s.mem := rfl
@[simp] theorem State.raiseCmdError_faults (s : State) (e : CmdError) : (s.raiseCmdError e).faults = s.faults := rfl
@[simp] theorem State.raiseCmdError_hardReset (s : State) (e : CmdError) :
    (s.raiseCmdError e).hardReset = s.hardReset := rfl
@[simp] theorem State.raiseCmdError_agenda (s : State) (e : CmdError) : (s.raiseCmdError e).agenda = s.agenda := rfl
@[simp] theorem State.raiseCmdError_reply (s : State) (e : CmdError) : (s.raiseCmdError e).reply = s.reply := rfl
@[simp] theorem State.raiseCmdError_draws (s : State) (e : CmdError) : (s.raiseCmdError e).draws = s.draws := rfl

/-! ### retire -/

@[simp] theorem State.retire_params (s : State) : s.retire.params = s.params := rfl
@[simp] theorem State.retire_irqEn (s : State) : s.retire.irqEn = s.irqEn := rfl
@[simp] theorem State.retire_done (s : State) : s.retire.done = true := rfl
@[simp] theorem State.retire_err (s : State) : s.retire.err = s.err := rfl
@[simp] theorem State.retire_startIgnored (s : State) : s.retire.startIgnored = s.startIgnored := rfl
@[simp] theorem State.retire_errCode (s : State) : s.retire.errCode = s.errCode := rfl
@[simp] theorem State.retire_cmd (s : State) : s.retire.cmd = s.cmd := rfl
@[simp] theorem State.retire_srcBase (s : State) : s.retire.srcBase = s.srcBase := rfl
@[simp] theorem State.retire_dstBase (s : State) : s.retire.dstBase = s.dstBase := rfl
@[simp] theorem State.retire_srcDim (s : State) : s.retire.srcDim = s.srcDim := rfl
@[simp] theorem State.retire_dstDim (s : State) : s.retire.dstDim = s.dstDim := rfl
@[simp] theorem State.retire_orientIndex (s : State) : s.retire.orientIndex = s.orientIndex := rfl
@[simp] theorem State.retire_cmdCount (s : State) : s.retire.cmdCount = s.cmdCount + 1 := rfl
@[simp] theorem State.retire_orient (s : State) : s.retire.orient = s.orient := rfl
@[simp] theorem State.retire_latch (s : State) : s.retire.latch = none := rfl
@[simp] theorem State.retire_mem (s : State) : s.retire.mem = s.mem := rfl
@[simp] theorem State.retire_faults (s : State) : s.retire.faults = s.faults := rfl
@[simp] theorem State.retire_hardReset (s : State) : s.retire.hardReset = s.hardReset := rfl
@[simp] theorem State.retire_agenda (s : State) : s.retire.agenda = s.agenda := rfl
@[simp] theorem State.retire_reply (s : State) : s.retire.reply = s.reply := rfl
@[simp] theorem State.retire_draws (s : State) : s.retire.draws = s.draws := rfl

/-! ### failCommand -/

@[simp] theorem State.failCommand_params (s : State) (e : CmdError) : (s.failCommand e).params = s.params := rfl
@[simp] theorem State.failCommand_irqEn (s : State) (e : CmdError) : (s.failCommand e).irqEn = s.irqEn := rfl
@[simp] theorem State.failCommand_done (s : State) (e : CmdError) : (s.failCommand e).done = true := rfl
@[simp] theorem State.failCommand_err (s : State) (e : CmdError) : (s.failCommand e).err = true := rfl
@[simp] theorem State.failCommand_startIgnored (s : State) (e : CmdError) :
    (s.failCommand e).startIgnored = s.startIgnored := rfl
@[simp] theorem State.failCommand_errCode (s : State) (e : CmdError) : (s.failCommand e).errCode = e.code := rfl
@[simp] theorem State.failCommand_cmd (s : State) (e : CmdError) : (s.failCommand e).cmd = s.cmd := rfl
@[simp] theorem State.failCommand_srcBase (s : State) (e : CmdError) : (s.failCommand e).srcBase = s.srcBase := rfl
@[simp] theorem State.failCommand_dstBase (s : State) (e : CmdError) : (s.failCommand e).dstBase = s.dstBase := rfl
@[simp] theorem State.failCommand_srcDim (s : State) (e : CmdError) : (s.failCommand e).srcDim = s.srcDim := rfl
@[simp] theorem State.failCommand_dstDim (s : State) (e : CmdError) : (s.failCommand e).dstDim = s.dstDim := rfl
@[simp] theorem State.failCommand_orientIndex (s : State) (e : CmdError) :
    (s.failCommand e).orientIndex = s.orientIndex := rfl
@[simp] theorem State.failCommand_cmdCount (s : State) (e : CmdError) :
    (s.failCommand e).cmdCount = s.cmdCount + 1 := rfl
@[simp] theorem State.failCommand_orient (s : State) (e : CmdError) : (s.failCommand e).orient = s.orient := rfl
@[simp] theorem State.failCommand_latch (s : State) (e : CmdError) : (s.failCommand e).latch = none := rfl
@[simp] theorem State.failCommand_mem (s : State) (e : CmdError) : (s.failCommand e).mem = s.mem := rfl
@[simp] theorem State.failCommand_faults (s : State) (e : CmdError) : (s.failCommand e).faults = s.faults := rfl
@[simp] theorem State.failCommand_hardReset (s : State) (e : CmdError) :
    (s.failCommand e).hardReset = s.hardReset := rfl
@[simp] theorem State.failCommand_agenda (s : State) (e : CmdError) : (s.failCommand e).agenda = s.agenda := rfl
@[simp] theorem State.failCommand_reply (s : State) (e : CmdError) : (s.failCommand e).reply = s.reply := rfl
@[simp] theorem State.failCommand_draws (s : State) (e : CmdError) : (s.failCommand e).draws = s.draws := rfl

/-! ### deliver -/

@[simp] theorem State.deliver_params (s : State) (i : Instr) (l : Latch) (bs : List Byte) (o : Orient) :
    (s.deliver i l bs o).params = s.params := rfl
@[simp] theorem State.deliver_irqEn (s : State) (i : Instr) (l : Latch) (bs : List Byte) (o : Orient) :
    (s.deliver i l bs o).irqEn = s.irqEn := rfl
@[simp] theorem State.deliver_done (s : State) (i : Instr) (l : Latch) (bs : List Byte) (o : Orient) :
    (s.deliver i l bs o).done = s.done := rfl
@[simp] theorem State.deliver_err (s : State) (i : Instr) (l : Latch) (bs : List Byte) (o : Orient) :
    (s.deliver i l bs o).err = s.err := rfl
@[simp] theorem State.deliver_startIgnored (s : State) (i : Instr) (l : Latch) (bs : List Byte) (o : Orient) :
    (s.deliver i l bs o).startIgnored = s.startIgnored := rfl
@[simp] theorem State.deliver_errCode (s : State) (i : Instr) (l : Latch) (bs : List Byte) (o : Orient) :
    (s.deliver i l bs o).errCode = s.errCode := rfl
@[simp] theorem State.deliver_cmd (s : State) (i : Instr) (l : Latch) (bs : List Byte) (o : Orient) :
    (s.deliver i l bs o).cmd = s.cmd := rfl
@[simp] theorem State.deliver_srcBase (s : State) (i : Instr) (l : Latch) (bs : List Byte) (o : Orient) :
    (s.deliver i l bs o).srcBase = s.srcBase := rfl
@[simp] theorem State.deliver_dstBase (s : State) (i : Instr) (l : Latch) (bs : List Byte) (o : Orient) :
    (s.deliver i l bs o).dstBase = s.dstBase := rfl
@[simp] theorem State.deliver_srcDim (s : State) (i : Instr) (l : Latch) (bs : List Byte) (o : Orient) :
    (s.deliver i l bs o).srcDim = s.srcDim := rfl
@[simp] theorem State.deliver_dstDim (s : State) (i : Instr) (l : Latch) (bs : List Byte) (o : Orient) :
    (s.deliver i l bs o).dstDim = s.dstDim := rfl
@[simp] theorem State.deliver_orientIndex (s : State) (i : Instr) (l : Latch) (bs : List Byte) (o : Orient) :
    (s.deliver i l bs o).orientIndex = s.orientIndex := rfl
@[simp] theorem State.deliver_cmdCount (s : State) (i : Instr) (l : Latch) (bs : List Byte) (o : Orient) :
    (s.deliver i l bs o).cmdCount = s.cmdCount := rfl
@[simp] theorem State.deliver_orient (s : State) (i : Instr) (l : Latch) (bs : List Byte) (o : Orient) :
    (s.deliver i l bs o).orient = o := rfl
@[simp] theorem State.deliver_latch (s : State) (i : Instr) (l : Latch) (bs : List Byte) (o : Orient) :
    (s.deliver i l bs o).latch = s.latch := rfl
@[simp] theorem State.deliver_mem (s : State) (i : Instr) (l : Latch) (bs : List Byte) (o : Orient) :
    (s.deliver i l bs o).mem = Memory.storeBytes s.mem l.dstBase (destBytes i l s.draws bs) := rfl
@[simp] theorem State.deliver_faults (s : State) (i : Instr) (l : Latch) (bs : List Byte) (o : Orient) :
    (s.deliver i l bs o).faults = { s.faults with uninitRead := s.faults.uninitRead || l.readsUnwritten } := rfl
@[simp] theorem State.deliver_hardReset (s : State) (i : Instr) (l : Latch) (bs : List Byte) (o : Orient) :
    (s.deliver i l bs o).hardReset = s.hardReset := rfl
@[simp] theorem State.deliver_agenda (s : State) (i : Instr) (l : Latch) (bs : List Byte) (o : Orient) :
    (s.deliver i l bs o).agenda = s.agenda := rfl
@[simp] theorem State.deliver_reply (s : State) (i : Instr) (l : Latch) (bs : List Byte) (o : Orient) :
    (s.deliver i l bs o).reply = s.reply := rfl
@[simp] theorem State.deliver_draws (s : State) (i : Instr) (l : Latch) (bs : List Byte) (o : Orient) :
    (s.deliver i l bs o).draws = if l.readsUnwritten || l.raced then s.draws + l.srcSize + destSize i l else s.draws := rfl

/-! ### clearRegisters -/

@[simp] theorem State.clearRegisters_params (s : State) : s.clearRegisters.params = s.params := rfl
@[simp] theorem State.clearRegisters_irqEn (s : State) : s.clearRegisters.irqEn = false := rfl
@[simp] theorem State.clearRegisters_done (s : State) : s.clearRegisters.done = false := rfl
@[simp] theorem State.clearRegisters_err (s : State) : s.clearRegisters.err = false := rfl
@[simp] theorem State.clearRegisters_startIgnored (s : State) : s.clearRegisters.startIgnored = false := rfl
@[simp] theorem State.clearRegisters_errCode (s : State) : s.clearRegisters.errCode = 0 := rfl
@[simp] theorem State.clearRegisters_cmd (s : State) : s.clearRegisters.cmd = 0 := rfl
@[simp] theorem State.clearRegisters_srcBase (s : State) : s.clearRegisters.srcBase = 0 := rfl
@[simp] theorem State.clearRegisters_dstBase (s : State) : s.clearRegisters.dstBase = 0 := rfl
@[simp] theorem State.clearRegisters_srcDim (s : State) : s.clearRegisters.srcDim = 0 := rfl
@[simp] theorem State.clearRegisters_dstDim (s : State) : s.clearRegisters.dstDim = 0 := rfl
@[simp] theorem State.clearRegisters_orientIndex (s : State) : s.clearRegisters.orientIndex = 0 := rfl
@[simp] theorem State.clearRegisters_cmdCount (s : State) : s.clearRegisters.cmdCount = 0 := rfl
@[simp] theorem State.clearRegisters_orient (s : State) : s.clearRegisters.orient = Orient.invalid := rfl
@[simp] theorem State.clearRegisters_latch (s : State) : s.clearRegisters.latch = none := rfl
@[simp] theorem State.clearRegisters_mem (s : State) : s.clearRegisters.mem = s.mem := rfl
@[simp] theorem State.clearRegisters_faults (s : State) : s.clearRegisters.faults = s.faults := rfl
@[simp] theorem State.clearRegisters_hardReset (s : State) : s.clearRegisters.hardReset = s.hardReset := rfl
@[simp] theorem State.clearRegisters_agenda (s : State) : s.clearRegisters.agenda = s.agenda := rfl
@[simp] theorem State.clearRegisters_reply (s : State) : s.clearRegisters.reply = s.reply := rfl
@[simp] theorem State.clearRegisters_draws (s : State) : s.clearRegisters.draws = s.draws := rfl

/-! ### releaseReset -/

@[simp] theorem State.releaseReset_params (s : State) : s.releaseReset.params = s.params := rfl
@[simp] theorem State.releaseReset_irqEn (s : State) : s.releaseReset.irqEn = s.irqEn := rfl
@[simp] theorem State.releaseReset_done (s : State) : s.releaseReset.done = s.done := rfl
@[simp] theorem State.releaseReset_err (s : State) : s.releaseReset.err = s.err := rfl
@[simp] theorem State.releaseReset_startIgnored (s : State) : s.releaseReset.startIgnored = s.startIgnored := rfl
@[simp] theorem State.releaseReset_errCode (s : State) : s.releaseReset.errCode = s.errCode := rfl
@[simp] theorem State.releaseReset_cmd (s : State) : s.releaseReset.cmd = s.cmd := rfl
@[simp] theorem State.releaseReset_srcBase (s : State) : s.releaseReset.srcBase = s.srcBase := rfl
@[simp] theorem State.releaseReset_dstBase (s : State) : s.releaseReset.dstBase = s.dstBase := rfl
@[simp] theorem State.releaseReset_srcDim (s : State) : s.releaseReset.srcDim = s.srcDim := rfl
@[simp] theorem State.releaseReset_dstDim (s : State) : s.releaseReset.dstDim = s.dstDim := rfl
@[simp] theorem State.releaseReset_orientIndex (s : State) : s.releaseReset.orientIndex = s.orientIndex := rfl
@[simp] theorem State.releaseReset_cmdCount (s : State) : s.releaseReset.cmdCount = s.cmdCount := rfl
@[simp] theorem State.releaseReset_orient (s : State) : s.releaseReset.orient = s.orient := rfl
@[simp] theorem State.releaseReset_latch (s : State) : s.releaseReset.latch = s.latch := rfl
@[simp] theorem State.releaseReset_mem (s : State) : s.releaseReset.mem = s.mem := rfl
@[simp] theorem State.releaseReset_faults (s : State) : s.releaseReset.faults = s.faults := rfl
@[simp] theorem State.releaseReset_hardReset (s : State) : s.releaseReset.hardReset = false := rfl
@[simp] theorem State.releaseReset_agenda (s : State) : s.releaseReset.agenda = s.agenda := rfl
@[simp] theorem State.releaseReset_reply (s : State) : s.releaseReset.reply = s.reply := rfl
@[simp] theorem State.releaseReset_draws (s : State) : s.releaseReset.draws = s.draws := rfl

/-! ### readReg -/

@[simp] theorem State.readReg_params (s : State) (r : Reg) : (s.readReg r).params = s.params := rfl
@[simp] theorem State.readReg_irqEn (s : State) (r : Reg) : (s.readReg r).irqEn = s.irqEn := rfl
@[simp] theorem State.readReg_done (s : State) (r : Reg) : (s.readReg r).done = s.done := rfl
@[simp] theorem State.readReg_err (s : State) (r : Reg) : (s.readReg r).err = s.err := rfl
@[simp] theorem State.readReg_startIgnored (s : State) (r : Reg) : (s.readReg r).startIgnored = s.startIgnored := rfl
@[simp] theorem State.readReg_errCode (s : State) (r : Reg) : (s.readReg r).errCode = s.errCode := rfl
@[simp] theorem State.readReg_cmd (s : State) (r : Reg) : (s.readReg r).cmd = s.cmd := rfl
@[simp] theorem State.readReg_srcBase (s : State) (r : Reg) : (s.readReg r).srcBase = s.srcBase := rfl
@[simp] theorem State.readReg_dstBase (s : State) (r : Reg) : (s.readReg r).dstBase = s.dstBase := rfl
@[simp] theorem State.readReg_srcDim (s : State) (r : Reg) : (s.readReg r).srcDim = s.srcDim := rfl
@[simp] theorem State.readReg_dstDim (s : State) (r : Reg) : (s.readReg r).dstDim = s.dstDim := rfl
@[simp] theorem State.readReg_orientIndex (s : State) (r : Reg) : (s.readReg r).orientIndex = s.orientIndex := rfl
@[simp] theorem State.readReg_cmdCount (s : State) (r : Reg) : (s.readReg r).cmdCount = s.cmdCount := rfl
@[simp] theorem State.readReg_orient (s : State) (r : Reg) : (s.readReg r).orient = s.orient := rfl
@[simp] theorem State.readReg_latch (s : State) (r : Reg) : (s.readReg r).latch = s.latch := rfl
@[simp] theorem State.readReg_mem (s : State) (r : Reg) : (s.readReg r).mem = s.mem := rfl
@[simp] theorem State.readReg_faults (s : State) (r : Reg) : (s.readReg r).faults = s.faults := rfl
@[simp] theorem State.readReg_hardReset (s : State) (r : Reg) : (s.readReg r).hardReset = s.hardReset := rfl
@[simp] theorem State.readReg_agenda (s : State) (r : Reg) : (s.readReg r).agenda = s.agenda := rfl
@[simp] theorem State.readReg_reply (s : State) (r : Reg) : (s.readReg r).reply = .data (s.regValue r) := rfl
@[simp] theorem State.readReg_draws (s : State) (r : Reg) : (s.readReg r).draws = s.draws + s.regDraws r := rfl

/-! ### readFrame -/

@[simp] theorem State.readFrame_params (s : State) (off n : Nat) : (s.readFrame off n).params = s.params := rfl
@[simp] theorem State.readFrame_irqEn (s : State) (off n : Nat) : (s.readFrame off n).irqEn = s.irqEn := rfl
@[simp] theorem State.readFrame_done (s : State) (off n : Nat) : (s.readFrame off n).done = s.done := rfl
@[simp] theorem State.readFrame_err (s : State) (off n : Nat) : (s.readFrame off n).err = s.err := rfl
@[simp] theorem State.readFrame_startIgnored (s : State) (off n : Nat) :
    (s.readFrame off n).startIgnored = s.startIgnored := rfl
@[simp] theorem State.readFrame_errCode (s : State) (off n : Nat) : (s.readFrame off n).errCode = s.errCode := rfl
@[simp] theorem State.readFrame_cmd (s : State) (off n : Nat) : (s.readFrame off n).cmd = s.cmd := rfl
@[simp] theorem State.readFrame_srcBase (s : State) (off n : Nat) : (s.readFrame off n).srcBase = s.srcBase := rfl
@[simp] theorem State.readFrame_dstBase (s : State) (off n : Nat) : (s.readFrame off n).dstBase = s.dstBase := rfl
@[simp] theorem State.readFrame_srcDim (s : State) (off n : Nat) : (s.readFrame off n).srcDim = s.srcDim := rfl
@[simp] theorem State.readFrame_dstDim (s : State) (off n : Nat) : (s.readFrame off n).dstDim = s.dstDim := rfl
@[simp] theorem State.readFrame_orientIndex (s : State) (off n : Nat) :
    (s.readFrame off n).orientIndex = s.orientIndex := rfl
@[simp] theorem State.readFrame_cmdCount (s : State) (off n : Nat) : (s.readFrame off n).cmdCount = s.cmdCount := rfl
@[simp] theorem State.readFrame_orient (s : State) (off n : Nat) : (s.readFrame off n).orient = s.orient := rfl
@[simp] theorem State.readFrame_latch (s : State) (off n : Nat) : (s.readFrame off n).latch = s.latch := rfl
@[simp] theorem State.readFrame_mem (s : State) (off n : Nat) : (s.readFrame off n).mem = s.mem := rfl
@[simp] theorem State.readFrame_faults (s : State) (off n : Nat) : (s.readFrame off n).faults = s.faults := rfl
@[simp] theorem State.readFrame_hardReset (s : State) (off n : Nat) :
    (s.readFrame off n).hardReset = s.hardReset := rfl
@[simp] theorem State.readFrame_agenda (s : State) (off n : Nat) : (s.readFrame off n).agenda = s.agenda := rfl
@[simp] theorem State.readFrame_reply (s : State) (off n : Nat) :
    (s.readFrame off n).reply = .data (wordFromBytes ((List.range n).map fun k => s.hostByte (off + k) k)) := rfl
@[simp] theorem State.readFrame_draws (s : State) (off n : Nat) : (s.readFrame off n).draws = s.draws + n := rfl

/-! ### writeFrame -/

@[simp] theorem State.writeFrame_params (s : State) (off n : Nat) (v : Word) :
    (s.writeFrame off n v).params = s.params := rfl
@[simp] theorem State.writeFrame_irqEn (s : State) (off n : Nat) (v : Word) :
    (s.writeFrame off n v).irqEn = s.irqEn := rfl
@[simp] theorem State.writeFrame_done (s : State) (off n : Nat) (v : Word) :
    (s.writeFrame off n v).done = s.done := rfl
@[simp] theorem State.writeFrame_err (s : State) (off n : Nat) (v : Word) : (s.writeFrame off n v).err = s.err := rfl
@[simp] theorem State.writeFrame_startIgnored (s : State) (off n : Nat) (v : Word) :
    (s.writeFrame off n v).startIgnored = s.startIgnored := rfl
@[simp] theorem State.writeFrame_errCode (s : State) (off n : Nat) (v : Word) :
    (s.writeFrame off n v).errCode = s.errCode := rfl
@[simp] theorem State.writeFrame_cmd (s : State) (off n : Nat) (v : Word) : (s.writeFrame off n v).cmd = s.cmd := rfl
@[simp] theorem State.writeFrame_srcBase (s : State) (off n : Nat) (v : Word) :
    (s.writeFrame off n v).srcBase = s.srcBase := rfl
@[simp] theorem State.writeFrame_dstBase (s : State) (off n : Nat) (v : Word) :
    (s.writeFrame off n v).dstBase = s.dstBase := rfl
@[simp] theorem State.writeFrame_srcDim (s : State) (off n : Nat) (v : Word) :
    (s.writeFrame off n v).srcDim = s.srcDim := rfl
@[simp] theorem State.writeFrame_dstDim (s : State) (off n : Nat) (v : Word) :
    (s.writeFrame off n v).dstDim = s.dstDim := rfl
@[simp] theorem State.writeFrame_orientIndex (s : State) (off n : Nat) (v : Word) :
    (s.writeFrame off n v).orientIndex = s.orientIndex := rfl
@[simp] theorem State.writeFrame_cmdCount (s : State) (off n : Nat) (v : Word) :
    (s.writeFrame off n v).cmdCount = s.cmdCount := rfl
@[simp] theorem State.writeFrame_orient (s : State) (off n : Nat) (v : Word) :
    (s.writeFrame off n v).orient = s.orient := rfl
@[simp] theorem State.writeFrame_latch (s : State) (off n : Nat) (v : Word) :
    (s.writeFrame off n v).latch = markRaced (s.racesAt off n) s.latch := rfl
@[simp] theorem State.writeFrame_mem (s : State) (off n : Nat) (v : Word) :
    (s.writeFrame off n v).mem = Memory.storeBytes s.mem off (s.writtenBytes off n v) := rfl
@[simp] theorem State.writeFrame_faults (s : State) (off n : Nat) (v : Word) :
    (s.writeFrame off n v).faults = { s.faults with hostRace := s.faults.hostRace || s.racesAt off n } := rfl
@[simp] theorem State.writeFrame_hardReset (s : State) (off n : Nat) (v : Word) :
    (s.writeFrame off n v).hardReset = s.hardReset := rfl
@[simp] theorem State.writeFrame_agenda (s : State) (off n : Nat) (v : Word) :
    (s.writeFrame off n v).agenda = s.agenda := rfl
@[simp] theorem State.writeFrame_reply (s : State) (off n : Nat) (v : Word) :
    (s.writeFrame off n v).reply = .done := rfl
@[simp] theorem State.writeFrame_draws (s : State) (off n : Nat) (v : Word) :
    (s.writeFrame off n v).draws = if s.racesAt off n then s.draws + n else s.draws := rfl

/-! ### abort and resetBlock -/

@[simp] theorem State.abort_params (s : State) : s.abort.params = s.params := by
  unfold State.abort; split <;> rfl

@[simp] theorem State.abort_faults (s : State) : s.abort.faults = s.faults := by
  unfold State.abort; split <;> rfl

@[simp] theorem State.abort_hardReset (s : State) : s.abort.hardReset = s.hardReset := by
  unfold State.abort; split <;> rfl

@[simp] theorem State.abort_agenda (s : State) : s.abort.agenda = s.agenda := by
  unfold State.abort; split <;> rfl

@[simp] theorem State.abort_reply (s : State) : s.abort.reply = s.reply := by
  unfold State.abort; split <;> rfl

@[simp] theorem State.abort_irqEn (s : State) : s.abort.irqEn = s.irqEn := by
  unfold State.abort; split <;> rfl

@[simp] theorem State.abort_done (s : State) : s.abort.done = s.done := by
  unfold State.abort; split <;> rfl

@[simp] theorem State.abort_err (s : State) : s.abort.err = s.err := by
  unfold State.abort; split <;> rfl

@[simp] theorem State.abort_startIgnored (s : State) : s.abort.startIgnored = s.startIgnored := by
  unfold State.abort; split <;> rfl

@[simp] theorem State.abort_errCode (s : State) : s.abort.errCode = s.errCode := by
  unfold State.abort; split <;> rfl

@[simp] theorem State.abort_cmd (s : State) : s.abort.cmd = s.cmd := by
  unfold State.abort; split <;> rfl

@[simp] theorem State.abort_srcBase (s : State) : s.abort.srcBase = s.srcBase := by
  unfold State.abort; split <;> rfl

@[simp] theorem State.abort_dstBase (s : State) : s.abort.dstBase = s.dstBase := by
  unfold State.abort; split <;> rfl

@[simp] theorem State.abort_srcDim (s : State) : s.abort.srcDim = s.srcDim := by
  unfold State.abort; split <;> rfl

@[simp] theorem State.abort_dstDim (s : State) : s.abort.dstDim = s.dstDim := by
  unfold State.abort; split <;> rfl

@[simp] theorem State.abort_orientIndex (s : State) : s.abort.orientIndex = s.orientIndex := by
  unfold State.abort; split <;> rfl

@[simp] theorem State.abort_cmdCount (s : State) : s.abort.cmdCount = s.cmdCount := by
  unfold State.abort; split <;> rfl

@[simp] theorem State.abort_orient (s : State) : s.abort.orient = s.orient := by
  unfold State.abort; split <;> rfl

@[simp] theorem State.abort_latch (s : State) : s.abort.latch = none := by
  unfold State.abort; split <;> simp_all

@[simp] theorem State.resetBlock_params (s : State) : s.resetBlock.params = s.params := by
  simp [State.resetBlock]

@[simp] theorem State.resetBlock_irqEn (s : State) : s.resetBlock.irqEn = false := by
  simp [State.resetBlock]

@[simp] theorem State.resetBlock_done (s : State) : s.resetBlock.done = false := by
  simp [State.resetBlock]

@[simp] theorem State.resetBlock_err (s : State) : s.resetBlock.err = false := by
  simp [State.resetBlock]

@[simp] theorem State.resetBlock_startIgnored (s : State) : s.resetBlock.startIgnored = false := by
  simp [State.resetBlock]

@[simp] theorem State.resetBlock_errCode (s : State) : s.resetBlock.errCode = 0 := by
  simp [State.resetBlock]

@[simp] theorem State.resetBlock_cmd (s : State) : s.resetBlock.cmd = 0 := by
  simp [State.resetBlock]

@[simp] theorem State.resetBlock_srcBase (s : State) : s.resetBlock.srcBase = 0 := by
  simp [State.resetBlock]

@[simp] theorem State.resetBlock_dstBase (s : State) : s.resetBlock.dstBase = 0 := by
  simp [State.resetBlock]

@[simp] theorem State.resetBlock_srcDim (s : State) : s.resetBlock.srcDim = 0 := by
  simp [State.resetBlock]

@[simp] theorem State.resetBlock_dstDim (s : State) : s.resetBlock.dstDim = 0 := by
  simp [State.resetBlock]

@[simp] theorem State.resetBlock_orientIndex (s : State) : s.resetBlock.orientIndex = 0 := by
  simp [State.resetBlock]

@[simp] theorem State.resetBlock_cmdCount (s : State) : s.resetBlock.cmdCount = 0 := by
  simp [State.resetBlock]

@[simp] theorem State.resetBlock_orient (s : State) : s.resetBlock.orient = Orient.invalid := by
  simp [State.resetBlock]

@[simp] theorem State.resetBlock_latch (s : State) : s.resetBlock.latch = none := by
  simp [State.resetBlock]

@[simp] theorem State.resetBlock_mem (s : State) : s.resetBlock.mem = s.abort.mem := by
  simp [State.resetBlock]

@[simp] theorem State.resetBlock_faults (s : State) : s.resetBlock.faults = s.faults := by
  simp [State.resetBlock]

@[simp] theorem State.resetBlock_hardReset (s : State) : s.resetBlock.hardReset = s.hardReset := by
  simp [State.resetBlock]

@[simp] theorem State.resetBlock_agenda (s : State) : s.resetBlock.agenda = s.agenda := by
  simp [State.resetBlock]

@[simp] theorem State.resetBlock_reply (s : State) : s.resetBlock.reply = s.reply := by
  simp [State.resetBlock]

@[simp] theorem State.resetBlock_draws (s : State) : s.resetBlock.draws = s.abort.draws := by
  simp [State.resetBlock]

theorem State.abort_idle (s : State) (h : s.latch = none) : s.abort = s := by
  simp [State.abort, h]

end Sys2Proof.Machine
end

