-- ==== Sys2Proof/Laws/Bus.lean ====
section
/-! SUPPORT. All a host access can do, said once (10_state.md R38; 20_memory.md R60, R63), and where a bus address lands. -/

namespace Sys2Proof.Machine

/-- An address inside the register window is a register access (20_memory.md R60). -/
theorem locate_register (p : Params) (off : Nat) (h : off < 0x100) : locate p (p.regBase + off) = .register off := by
  simp [locate, Config.regBytes, h]

/-- An address at FMEM_BASE or above, outside the register window, is a frame memory access (20_memory.md R60). -/
theorem locate_frame (p : Params) (off : Nat)
    (h : p.fmemBase + off < p.regBase ∨ p.regBase + 0x100 ≤ p.fmemBase + off) :
    locate p (p.fmemBase + off) = .frame off := by
  have : ¬ (p.regBase ≤ p.fmemBase + off ∧ p.fmemBase + off < p.regBase + Config.regBytes) := by
    simp only [Config.regBytes]
    omega
  simp [locate, this]

/-- With windows apart, an offset inside frame memory is a frame memory access (20_memory.md R65). -/
theorem locate_frame_of_valid {p : Params} (hp : p.Valid) (off : Nat) (h : off < p.fmemBytes) :
    locate p (p.fmemBase + off) = .frame off := by
  refine locate_frame p off ?_
  have := hp.windows_apart
  simp only [Config.regBytes] at this
  omega

theorem Reg.offset_lt (r : Reg) : r.offset < 0x100 := by cases r <;> decide

theorem Reg.offset_aligned (r : Reg) : regAccessOk r.offset .word = true := by cases r <;> decide

@[simp] theorem regAt_offset (r : Reg) : regAt r.offset = r := by cases r <;> rfl

/-- A live 32-bit read of a register, by its bus address. -/
theorem hostAccess_readReg (s : State) (r : Reg) (h : s.hardReset = false) :
    hostAccess (readRegAccess s.params r) s = s.readReg r := by
  simp [hostAccess, h, readRegAccess, locate_register _ _ r.offset_lt, r.offset_aligned]

/-- A live 32-bit write of a register, by its bus address. -/
theorem hostAccess_writeReg (s : State) (r : Reg) (v : Word) (h : s.hardReset = false) :
    hostAccess (writeRegAccess s.params r v) s = s.writeReg r v := by
  simp [hostAccess, h, writeRegAccess, locate_register _ _ r.offset_lt, r.offset_aligned]

theorem Width.bytes_pos (w : Width) : 0 < w.bytes := by cases w <;> decide

/-- A live frame memory read that R60 and R63 of 20_memory.md allow. -/
theorem hostAccess_readFrame (s : State) (off : Nat) (w : Width) (hp : s.params.Valid) (h : s.hardReset = false)
    (ha : off % w.bytes = 0) (hi : off + w.bytes ≤ s.params.fmemBytes) :
    hostAccess (.read (s.params.fmemBase + off) w) s = s.readFrame off w.bytes := by
  have hl : off < s.params.fmemBytes := by
    have := w.bytes_pos
    omega
  simp [hostAccess, h, locate_frame_of_valid hp off hl, frameAccessOk, ha, hi]

/-- A live frame memory write that R60 and R63 of 20_memory.md allow. -/
theorem hostAccess_writeFrame (s : State) (off : Nat) (w : Width) (v : Word) (hp : s.params.Valid)
    (h : s.hardReset = false) (ha : off % w.bytes = 0) (hi : off + w.bytes ≤ s.params.fmemBytes) :
    hostAccess (.write (s.params.fmemBase + off) w v) s = s.writeFrame off w.bytes v := by
  have hl : off < s.params.fmemBytes := by
    have := w.bytes_pos
    omega
  simp [hostAccess, h, locate_frame_of_valid hp off hl, frameAccessOk, ha, hi]

/-- A write outside the regions of the running command is no HOST_RACE (20_memory.md R71). -/
theorem State.racesAt_eq_false (s : State) (off n : Nat) (h : ∀ k, k < n → s.regionBusy (off + k) = false) :
    s.racesAt off n = false := by
  simp only [State.racesAt, List.any_eq_false, List.mem_range]
  intro k hk
  simp [h k hk]

/-- A write outside the regions of the running command leaves the written bytes (20_memory.md R62). -/
theorem State.writtenBytes_clean (s : State) (off n : Nat) (v : Word)
    (h : ∀ k, k < n → s.regionBusy (off + k) = false) : s.writtenBytes off n v = wordBytes v n := by
  unfold State.writtenBytes wordBytes
  refine List.map_congr_left fun k hk => ?_
  rw [h k (List.mem_range.1 hk)]
  rfl

/-- Everything a host access can do. -/
theorem hostAccess_cases (a : Access) (s : State) :
    hostAccess a s = s.refuseAccess ∨
    (s.hardReset = false ∧ ∃ r, hostAccess a s = s.readReg r) ∨
    (s.hardReset = false ∧ ∃ r v, hostAccess a s = s.writeReg r v) ∨
    (s.hardReset = false ∧ ∃ off n, off + n ≤ s.params.fmemBytes ∧ hostAccess a s = s.readFrame off n) ∨
    (s.hardReset = false ∧ ∃ off n v, off + n ≤ s.params.fmemBytes ∧ hostAccess a s = s.writeFrame off n v) := by
  unfold hostAccess
  split
  · exact .inl rfl
  · have hr : s.hardReset = false := by simpa using ‹¬ s.hardReset = true›
    split
    · split
      · split
        · exact .inr (.inl ⟨hr, _, rfl⟩)
        · exact .inl rfl
      · split
        · rename_i hok
          simp only [frameAccessOk, Bool.and_eq_true, decide_eq_true_eq] at hok
          exact .inr (.inr (.inr (.inl ⟨hr, _, _, hok.2, rfl⟩)))
        · exact .inl rfl
      · exact .inl rfl
    · split
      · split
        · exact .inr (.inr (.inl ⟨hr, _, _, rfl⟩))
        · exact .inl rfl
      · split
        · rename_i hok
          simp only [frameAccessOk, Bool.and_eq_true, decide_eq_true_eq] at hok
          exact .inr (.inr (.inr (.inr ⟨hr, _, _, _, hok.2, rfl⟩)))
        · exact .inl rfl
      · exact .inl rfl

/-- Everything a CTRL write can do (10_state.md R23). -/
theorem State.writeCtrl_cases (v : Word) (s : State) :
    (v.getLsbD 1 = true ∧ s.writeCtrl v = s.resetBlock) ∨
    (v.getLsbD 1 = false ∧ v.getLsbD 0 = false ∧ s.writeCtrl v = { s with irqEn := v.getLsbD 2 }) ∨
    (v.getLsbD 1 = false ∧ v.getLsbD 0 = true ∧ s.busy = true ∧
      s.writeCtrl v = { s with irqEn := v.getLsbD 2 }.ignoreStart) ∨
    (v.getLsbD 1 = false ∧ v.getLsbD 0 = true ∧ s.busy = false ∧
      s.writeCtrl v = { s with irqEn := v.getLsbD 2 }.acceptStart) := by
  unfold State.writeCtrl
  split
  · exact .inl ⟨‹_›, rfl⟩
  · have h1 : v.getLsbD 1 = false := by simpa using ‹¬ v.getLsbD 1 = true›
    split
    · unfold State.startAction
      cases hb : s.busy with
      | true => exact .inr (.inr (.inl ⟨h1, ‹_›, rfl, if_pos hb⟩))
      | false => exact .inr (.inr (.inr ⟨h1, ‹_›, rfl, if_neg (by simpa [State.busy] using hb)⟩))
    · exact .inr (.inl ⟨h1, by simpa using ‹¬ v.getLsbD 0 = true›, rfl⟩)

@[simp] theorem markRaced_none (race : Bool) : markRaced race none = none := rfl

theorem markRaced_false (o : Option Latch) : markRaced false o = o := by
  cases o <;> simp [markRaced]

theorem markRaced_some (race : Bool) (l : Latch) :
    markRaced race (some l) = some l ∨ markRaced race (some l) = some { l with raced := true } := by
  cases race with
  | true => exact .inr (by simp [markRaced])
  | false => exact .inl (markRaced_false _)

@[simp] theorem State.writtenBytes_length (s : State) (off n : Nat) (v : Word) :
    (s.writtenBytes off n v).length = n := by
  simp [State.writtenBytes]

end Sys2Proof.Machine
end

