-- ==== Sys2Proof/Laws/Operands.lean ====
section
/-! SUPPORT. The laws of the operands: how long a destination is, what byte stands where in it, what a source sample is, and when
the checks pass. -/

namespace Sys2Proof.Machine

@[simp] theorem render_length (wd hd : Nat) (d : Plane) : (render wd hd d).length = wd * hd := by
  simp [render]

/-- The byte at row r, column c of a rendered plane. -/
theorem render_getElem (wd hd : Nat) (d : Plane) (r c : Nat) (hc : c < wd)
    (h : r * wd + c < (render wd hd d).length) : (render wd hd d)[r * wd + c] = BitVec.ofNat 8 (d r c) := by
  have hw : 0 < wd := by omega
  have e1 : (r * wd + c) / wd = r := by
    rw [Nat.mul_comm, Nat.mul_add_div hw, Nat.div_eq_of_lt hc, Nat.add_zero]
  have e2 : (r * wd + c) % wd = c := by
    rw [Nat.mul_comm, Nat.mul_add_mod, Nat.mod_eq_of_lt hc]
  simp [render, e1, e2]

/-- A row and a column of a plane name an offset inside it. -/
theorem index_lt {wd hd r c : Nat} (hr : r < hd) (hc : c < wd) : r * wd + c < wd * hd := by
  have h : (r + 1) * wd ≤ hd * wd := Nat.mul_le_mul_right wd hr
  rw [Nat.add_mul, Nat.one_mul] at h
  rw [Nat.mul_comm wd hd]
  omega

@[simp] theorem freeBytes_length (d n : Nat) : (freeBytes d n).length = n := by
  simp [freeBytes]

@[simp] theorem spreadTo_length (n : Nat) (e wt : F32) (F : ErrorField) : (spreadTo n e wt F).length = F.length := by
  simp [spreadTo]

/-- One cell after one update (47_floyd_steinberg.md R241). -/
theorem spreadTo_getD (m : Nat) (e wt : F32) (F : ErrorField) (n : Nat) (hn : n < F.length) (d : F32) :
    (spreadTo m e wt F).getD n d = if m = n then (F.getD n d).add (e.mul wt) else F.getD n d := by
  unfold spreadTo
  simp only [List.getD_eq_getElem?_getD, List.getElem?_modify]
  rw [List.getElem?_eq_getElem hn]
  split <;> simp

/-- One cell after one share, which a neighbour outside the plane does not get (47_floyd_steinberg.md R241, R244). -/
theorem spread_getD (w h : Nat) (r c : Int) (e wt : F32) (F : ErrorField) (n : Nat) (hn : n < F.length) (d : F32) :
    (spread w h r c e wt F).getD n d =
      if (0 ≤ r ∧ r < h ∧ 0 ≤ c ∧ c < w) ∧ (r * w + c).toNat = n then (F.getD n d).add (e.mul wt)
      else F.getD n d := by
  unfold spread
  split
  · rw [spreadTo_getD _ _ _ _ _ hn]
    simp [*]
  · simp [*]

@[simp] theorem spread_length (w h : Nat) (r c : Int) (e wt : F32) (F : ErrorField) :
    (spread w h r c e wt F).length = F.length := by
  unfold spread
  split <;> simp

@[simp] theorem diffuse_length (w h r c : Nat) (e : F32) (F : ErrorField) :
    (diffuse w h r c e F).length = F.length := by
  simp [diffuse]

@[simp] theorem ditherFrom_length (step w h n i : Nat) (F : ErrorField) : (ditherFrom step w h n i F).length = n := by
  induction n generalizing i F with
  | zero => rfl
  | succ n ih => simp [ditherFrom, ih]

@[simp] theorem ditherDest_length (p : Params) (l : Latch) (S : Plane) :
    (ditherDest p l S).length = l.width * l.height := by
  simp [ditherDest, dither]

/-- What a command writes is as long as its destination region when its family's bytes are. -/
theorem destBytes_length (i : Instr) (l : Latch) (d : Nat) (bs : List Byte) (h : bs.length = destSize i l) :
    (destBytes i l d bs).length = destSize i l := by
  unfold destBytes
  split <;> simp [h]

/-- With a written source and no race a command writes its family's bytes. -/
theorem destBytes_clean (i : Instr) (l : Latch) (d : Nat) (bs : List Byte) (hu : l.readsUnwritten = false)
    (hr : l.raced = false) : destBytes i l d bs = bs := by
  simp [destBytes, hu, hr]

/-- A sample is a byte's value. -/
theorem Latch.sample_le (l : Latch) (d r c : Nat) : l.sample d r c ≤ 255 := by
  have := ((Memory.read l.source (l.srcBase + (r * l.width + c))).getD
    (Config.freeByte (d + (r * l.width + c)))).isLt
  simp only [Latch.sample]
  omega

/-- A sample whose byte was written is that byte. -/
theorem Latch.sample_written (l : Latch) (d r c : Nat) (b : Byte)
    (h : Memory.read l.source (l.srcBase + (r * l.width + c)) = some b) : l.sample d r c = b.toNat := by
  simp [Latch.sample, h]

theorem Latch.readsUnwritten_eq_false (l : Latch) :
    l.readsUnwritten = false ↔ ∀ k, k < l.srcSize → (Memory.read l.source (l.srcBase + k)).isSome := by
  simp [Latch.readsUnwritten, List.any_eq_false, Option.isSome_iff_ne_none]

theorem Latch.readsUnwritten_eq_true (l : Latch) :
    l.readsUnwritten = true ↔ ∃ k, k < l.srcSize ∧ Memory.read l.source (l.srcBase + k) = none := by
  simp [Latch.readsUnwritten, List.any_eq_true]

/-- The checks pass exactly when none of the five fails. -/
theorem checkOperands_eq_none (p : Params) (i : Instr) (l : Latch) :
    checkOperands p i l = none ↔ badDim p l = false ∧ badRatio i l = false ∧ outOfRange p i l = false ∧
      overlapping i l = false ∧ missingOrient i l = false := by
  unfold checkOperands
  split
  · simp_all
  · split
    · simp_all
    · split
      · simp_all
      · split
        · simp_all
        · split <;> simp_all

/-- A command that passes its checks writes inside frame memory (40_command_common.md R102, check 4). -/
theorem checkOperands_range {p : Params} {i : Instr} {l : Latch} (h : checkOperands p i l = none) :
    l.srcBase + l.srcSize ≤ p.fmemBytes ∧ l.dstBase + destSize i l ≤ p.fmemBytes := by
  have := ((checkOperands_eq_none p i l).1 h).2.2.1
  simp only [outOfRange, Bool.or_eq_false_iff, decide_eq_false_iff_not] at this
  omega

/-- A command that passes its checks has a shape the hardware accepts (40_command_common.md R102, check 2). -/
theorem checkOperands_dims {p : Params} {i : Instr} {l : Latch} (h : checkOperands p i l = none) :
    1 ≤ l.width ∧ l.width ≤ p.maxW ∧ 1 ≤ l.height ∧ l.height ≤ p.maxH := by
  have := ((checkOperands_eq_none p i l).1 h).1
  simp only [badDim, Bool.or_eq_false_iff, decide_eq_false_iff_not] at this
  omega

/-- Check 2 as a proposition (40_command_common.md R102). -/
theorem badDim_iff (p : Params) (l : Latch) : badDim p l = true ↔
    l.w.toNat = 0 ∨ l.h.toNat = 0 ∨ p.maxW < l.w.toNat ∨ p.maxH < l.h.toNat := by
  simp only [badDim, Bool.or_eq_true, decide_eq_true_eq, or_assoc]
  rfl

/-- Check 3 as a proposition (40_command_common.md R102). -/
theorem badRatio_iff (i : Instr) (l : Latch) : badRatio i l = true ↔ i = .boxds ∧
    (l.tw.toNat = 0 ∨ l.th.toNat = 0 ∨ l.w.toNat % l.tw.toNat ≠ 0 ∨ l.h.toNat % l.th.toNat ≠ 0) := by
  simp only [badRatio, Bool.and_eq_true, Bool.or_eq_true, decide_eq_true_eq, or_assoc]
  rfl

/-- Check 4 as a proposition (40_command_common.md R102). -/
theorem outOfRange_iff (p : Params) (i : Instr) (l : Latch) : outOfRange p i l = true ↔
    p.fmemBytes < l.srcBase + l.srcSize ∨ p.fmemBytes < l.dstBase + destSize i l := by
  simp only [outOfRange, Bool.or_eq_true, decide_eq_true_eq]

/-- Check 5 as a proposition (40_command_common.md R102). -/
theorem overlapping_iff (i : Instr) (l : Latch) : overlapping i l = true ↔
    (l.srcBase < l.dstBase + destSize i l ∧ l.dstBase < l.srcBase + l.srcSize) ∧
      ¬ (l.srcBase = l.dstBase ∧ destSize i l = l.srcSize) := by
  simp only [overlapping, Bool.and_eq_true, Bool.not_eq_true', ← Bool.not_eq_true, decide_eq_true_eq]

/-- Check 6 as a proposition (40_command_common.md R102). -/
theorem missingOrient_iff (i : Instr) (l : Latch) : missingOrient i l = true ↔ i = .nms ∧
    (l.orient.valid = false ∨ l.orient.width ≠ l.w ∨ l.orient.height ≠ l.h) := by
  simp only [missingOrient, Bool.and_eq_true, Bool.or_eq_true, Bool.not_eq_true', decide_eq_true_eq, or_assoc]

/-- Which check is the first to fail, in the order of the codes (40_command_common.md R102). -/
theorem checkOperands_eq_some (p : Params) (i : Instr) (l : Latch) (e : CmdError) :
    checkOperands p i l = some e ↔
      (e = .badDim ∧ badDim p l = true) ∨
      (e = .badRatio ∧ badDim p l = false ∧ badRatio i l = true) ∨
      (e = .range ∧ badDim p l = false ∧ badRatio i l = false ∧ outOfRange p i l = true) ∨
      (e = .overlap ∧ badDim p l = false ∧ badRatio i l = false ∧ outOfRange p i l = false ∧
        overlapping i l = true) ∨
      (e = .noOrient ∧ badDim p l = false ∧ badRatio i l = false ∧ outOfRange p i l = false ∧
        overlapping i l = false ∧ missingOrient i l = true) := by
  unfold checkOperands
  generalize badDim p l = b1
  generalize badRatio i l = b2
  generalize outOfRange p i l = b3
  generalize overlapping i l = b4
  generalize missingOrient i l = b5
  revert b1 b2 b3 b4 b5
  cases e <;> decide

/-- The interior as a proposition (00_scope.md R10). -/
theorem isInterior_iff (w h r c : Nat) :
    isInterior w h r c = true ↔ 1 ≤ r ∧ r + 2 ≤ h ∧ 1 ≤ c ∧ c + 2 ≤ w := by
  simp only [isInterior, Bool.and_eq_true, decide_eq_true_eq, and_assoc]

/-- The source region as a proposition (40_command_common.md R101). -/
theorem Latch.inSource_iff (l : Latch) (a : Nat) :
    l.inSource a = true ↔ l.srcBase ≤ a ∧ a < l.srcBase + l.srcSize := by
  simp only [Latch.inSource, Bool.and_eq_true, decide_eq_true_eq]

/-- The destination region as a proposition (40_command_common.md R101). -/
theorem Latch.inDest_iff (l : Latch) (a : Nat) :
    l.inDest a = true ↔ l.dstBase ≤ a ∧ a < l.dstBase + l.dstSize := by
  simp only [Latch.inDest, Bool.and_eq_true, decide_eq_true_eq]

/-- The size of the destination region of a latched legal command (40_command_common.md R101). -/
theorem Latch.dstSize_of_command (l : Latch) (i : Instr) (h : commandOf? l.cmd = some i) :
    l.dstSize = destSize i l := by
  simp only [Latch.dstSize, Latch.command?, h]

end Sys2Proof.Machine
end

