-- ==== Sys2Proof/Laws/Commands.lean ====
section
/-! SUPPORT. All a command's completion step can do, said once: it fails with the code of its first failing check, or it
delivers its destination (40_command_common.md R106). -/

namespace Sys2Proof.Machine

/-- The destination rule of each command. -/
def destOf : Instr → Params → Latch → Plane → List Byte
  | .gblur => blurDest
  | .sobel => sobelDest
  | .nms => nmsDest
  | .thresh => threshDest
  | .hyst => hystDest
  | .htone => htoneDest
  | .fsdith => ditherDest
  | .boxds => boxDest

/-- What each command makes of the ORIENT buffer. -/
def gradOf : Instr → Latch → Plane → Orient → Orient
  | .sobel => sobelOrient
  | .gblur | .nms | .thresh | .hyst | .htone | .fsdith | .boxds => keepOrient

/-- Every meaning is the shared completion step over its own two rules. -/
theorem exec_eq_complete (i : Instr) (s : State) : exec i s = complete i (destOf i) (gradOf i) s := by
  cases i <;> rfl

/-- Every destination rule gives as many bytes as the destination region has (40_command_common.md R101, R105). -/
theorem destOf_length (i : Instr) (p : Params) (l : Latch) (S : Plane) :
    (destOf i p l S).length = destSize i l := by
  cases i <;> simp [destOf, destSize, destWidth, destHeight, blurDest, sobelDest, nmsDest, threshDest, hystDest,
    htoneDest, boxDest]

/-- Only SOBEL changes the ORIENT buffer (10_state.md R33). -/
theorem gradOf_keep {i : Instr} (h : i ≠ .sobel) (l : Latch) (S : Plane) (o : Orient) : gradOf i l S o = o := by
  cases i <;> first | rfl | exact absurd rfl h

/-- The state in which a command that passes its checks ends. -/
def State.delivered (i : Instr) (l : Latch) (s : State) : State :=
  (s.deliver i l (destOf i s.params l (l.sample s.draws)) (gradOf i l (l.sample s.draws) s.orient)).retire

theorem exec_idle (i : Instr) (s : State) (h : s.latch = none) : exec i s = .fault .noCommandLatched := by
  rw [exec_eq_complete, complete, h]

theorem exec_fail (i : Instr) (s : State) (l : Latch) (e : CmdError) (h : s.latch = some l)
    (hc : checkOperands s.params i l = some e) : exec i s = .next (s.failCommand e) := by
  rw [exec_eq_complete, complete, h]
  simp only [hc]

theorem exec_pass (i : Instr) (s : State) (l : Latch) (h : s.latch = some l)
    (hc : checkOperands s.params i l = none) : exec i s = .next (s.delivered i l) := by
  rw [exec_eq_complete, complete, h]
  simp only [hc]
  rfl

/-- All that `exec` can answer while a command is latched. -/
theorem exec_cases (i : Instr) (s : State) (l : Latch) (h : s.latch = some l) :
    (∃ e, checkOperands s.params i l = some e ∧ exec i s = .next (s.failCommand e)) ∨
      (checkOperands s.params i l = none ∧ exec i s = .next (s.delivered i l)) := by
  cases hc : checkOperands s.params i l with
  | some e => exact .inl ⟨e, rfl, exec_fail i s l e h hc⟩
  | none => exact .inr ⟨rfl, exec_pass i s l h hc⟩

/-- What a delivered command writes is as long as its destination region. -/
theorem delivered_bytes_length (i : Instr) (l : Latch) (s : State) :
    (destBytes i l s.draws (destOf i s.params l (l.sample s.draws))).length = destSize i l :=
  destBytes_length i l _ _ (destOf_length i _ l _)

theorem State.delivered_mem (i : Instr) (l : Latch) (s : State) : (s.delivered i l).mem =
    Memory.storeBytes s.mem l.dstBase (destBytes i l s.draws (destOf i s.params l (l.sample s.draws))) := rfl

/-- A delivered command changes no byte outside its destination region (40_command_common.md R105). -/
theorem State.delivered_read_outside (i : Instr) (l : Latch) (s : State) (a : Nat)
    (h : a < l.dstBase ∨ l.dstBase + destSize i l ≤ a) :
    Memory.read (s.delivered i l).mem a = Memory.read s.mem a := by
  rw [State.delivered_mem]
  exact Memory.read_storeBytes_outside _ _ _ _ (by rw [delivered_bytes_length]; exact h)

/-- With a written source and no race, byte k of the destination is byte k of the family's rule. -/
theorem State.delivered_read_inside (i : Instr) (l : Latch) (s : State) (k : Nat) (hu : l.readsUnwritten = false)
    (hr : l.raced = false) (h : k < (destOf i s.params l (l.sample s.draws)).length) :
    Memory.read (s.delivered i l).mem (l.dstBase + k) = some (destOf i s.params l (l.sample s.draws))[k] := by
  rw [State.delivered_mem, destBytes_clean i l _ _ hu hr]
  exact Memory.read_storeBytes_inside _ _ _ _ h

@[simp] theorem State.delivered_params (i : Instr) (l : Latch) (s : State) : (s.delivered i l).params = s.params := rfl
@[simp] theorem State.delivered_latch (i : Instr) (l : Latch) (s : State) : (s.delivered i l).latch = none := rfl
@[simp] theorem State.delivered_done (i : Instr) (l : Latch) (s : State) : (s.delivered i l).done = true := rfl
@[simp] theorem State.delivered_err (i : Instr) (l : Latch) (s : State) : (s.delivered i l).err = s.err := rfl
@[simp] theorem State.delivered_errCode (i : Instr) (l : Latch) (s : State) :
    (s.delivered i l).errCode = s.errCode := rfl
@[simp] theorem State.delivered_cmdCount (i : Instr) (l : Latch) (s : State) :
    (s.delivered i l).cmdCount = s.cmdCount + 1 := rfl
@[simp] theorem State.delivered_agenda (i : Instr) (l : Latch) (s : State) : (s.delivered i l).agenda = s.agenda := rfl
@[simp] theorem State.delivered_hardReset (i : Instr) (l : Latch) (s : State) :
    (s.delivered i l).hardReset = s.hardReset := rfl
@[simp] theorem State.delivered_orient (i : Instr) (l : Latch) (s : State) :
    (s.delivered i l).orient = gradOf i l (l.sample s.draws) s.orient := rfl
@[simp] theorem State.delivered_faults (i : Instr) (l : Latch) (s : State) :
    (s.delivered i l).faults = { s.faults with uninitRead := s.faults.uninitRead || l.readsUnwritten } := rfl

end Sys2Proof.Machine
end

