-- ==== Sys2Proof/Laws/PerInstr.lean ====
section
/-! SUPPORT. Facts about every instruction as syntax, one lemma for each constructor. The family `CommandWord`: the command word
has RSVD = 0 and an OPCODE from 0x1 to 0x8 (30_encoding.md R80, R81), and four bytes on the bus, the first of which is
the opcode (20_memory.md R62). -/

namespace Sys2Proof.Laws.CommandWord

/-- RSVD = 0, OPCODE in 0x1 to 0x8, and the bytes of the word. -/
def Statement (i : Instr) : Prop :=
  rsvdField (encode i) = 0 ∧ 1 ≤ (opcodeField (encode i)).toNat ∧ (opcodeField (encode i)).toNat ≤ 8 ∧
    encodeBytes i = [(opcodeOf i).setWidth 8, 0, 0, 0]

theorem gblur : Statement .gblur := by unfold Statement; decide
theorem sobel : Statement .sobel := by unfold Statement; decide
theorem nms : Statement .nms := by unfold Statement; decide
theorem thresh : Statement .thresh := by unfold Statement; decide
theorem hyst : Statement .hyst := by unfold Statement; decide
theorem htone : Statement .htone := by unfold Statement; decide
theorem fsdith : Statement .fsdith := by unfold Statement; decide
theorem boxds : Statement .boxds := by unfold Statement; decide

end Sys2Proof.Laws.CommandWord
end

