-- ==== Sys2Proof/Laws/Step.lean ====
section
/-! SUPPORT. All a step can do, said once: the engine idles, completes the running command, or an event of the agenda acts. -/

namespace Sys2Proof.Machine

theorem commandOf?_ok {w : Word} {i : Instr} (h : decodeWord w = .ok i) : commandOf? w = some i := by
  simp [commandOf?, h]

theorem commandOf?_eq_some {w : Word} {i : Instr} : commandOf? w = some i ↔ decodeWord w = .ok i := by
  unfold commandOf?
  split <;> simp_all

theorem commandOf?_eq_none {w : Word} : commandOf? w = none ↔ ∃ e, decodeWord w = .error e := by
  unfold commandOf?
  split <;> simp_all

/-- The engine's turn with no command running (60_exceptions.md R315). -/
theorem engineTurn_idle (s : State) (h : s.latch = none) : engineTurn s = .next s := by
  rw [engineTurn, h]

/-- The engine's turn with a legal latched word. -/
theorem engineTurn_run (s : State) (l : Latch) (i : Instr) (h : s.latch = some l) (hd : decodeWord l.cmd = .ok i) :
    engineTurn s = exec i s := by
  rw [engineTurn, h]
  simp only [hd]

/-- The engine's turn with an illegal latched word (30_encoding.md R84). -/
theorem engineTurn_illegal (s : State) (l : Latch) (e : DecodeError) (h : s.latch = some l)
    (hd : decodeWord l.cmd = .error e) : engineTurn s = .next (s.failCommand .illegalCmd) := by
  rw [engineTurn, h]
  simp only [hd]

/-- All the engine's turn can do: nothing, a completion with an error, or a completion that delivers. -/
inductive EngineOutcome (s : State) : State → Prop where
  | idle (h : s.latch = none) : EngineOutcome s s
  | fails (l : Latch) (e : CmdError) (h : s.latch = some l) (ho : l.outcome s.params = some e) :
      EngineOutcome s (s.failCommand e)
  | delivers (l : Latch) (i : Instr) (h : s.latch = some l) (hd : commandOf? l.cmd = some i)
      (hc : checkOperands s.params i l = none) : EngineOutcome s (s.delivered i l)

theorem engineTurn_outcome {s t : State} (h : engineTurn s = .next t) : EngineOutcome s t := by
  cases hl : s.latch with
  | none =>
    rw [engineTurn_idle s hl] at h
    cases h
    exact .idle hl
  | some l =>
    cases hd : decodeWord l.cmd with
    | error e =>
      rw [engineTurn_illegal s l e hl hd] at h
      cases h
      exact .fails l _ hl (by simp [Latch.outcome, Latch.command?, commandOf?, hd])
    | ok i =>
      rw [engineTurn_run s l i hl hd] at h
      rcases exec_cases i s l hl with ⟨e, hc, he⟩ | ⟨hc, he⟩
      · rw [he] at h
        cases h
        exact .fails l e hl (by simp [Latch.outcome, Latch.command?, commandOf?, hd, hc])
      · rw [he] at h
        cases h
        exact .delivers l i hl (commandOf?_ok hd) hc

/-- `s` with the agenda moved on. -/
def State.moveOn (s : State) (rest : List Event) : State := { s with agenda := rest }

/-- All a step can do, and on which agenda. -/
inductive StepOutcome (s : State) : State → Prop where
  /-- The engine's turn, with nothing on the agenda. -/
  | idle (t : State) (ha : s.agenda = []) (h : EngineOutcome s t) : StepOutcome s t
  /-- The engine's turn, taken off the agenda. -/
  | engine (rest : List Event) (t : State) (ha : s.agenda = .engine :: rest) (h : EngineOutcome (s.moveOn rest) t) :
      StepOutcome s t
  /-- A host that waits polls while the engine completes. -/
  | poll (rest : List Event) (t : State) (ha : s.agenda = .wait :: rest) (hb : s.busy = true)
      (h : EngineOutcome s t) : StepOutcome s t
  /-- A host that waits finds BUSY = 0. -/
  | waited (rest : List Event) (ha : s.agenda = .wait :: rest) (hb : s.busy = false) :
      StepOutcome s (hostAccess (readRegAccess s.params .status) (s.moveOn rest))
  /-- A host access. -/
  | host (a : Access) (rest : List Event) (ha : s.agenda = .host a :: rest) :
      StepOutcome s (hostAccess a (s.moveOn rest))
  /-- The hard reset is asserted. -/
  | assertReset (rest : List Event) (ha : s.agenda = .assertReset :: rest) : StepOutcome s (s.moveOn rest).assertReset
  /-- The hard reset is released. -/
  | releaseReset (rest : List Event) (ha : s.agenda = .releaseReset :: rest) :
      StepOutcome s (s.moveOn rest).releaseReset
  /-- A power cycle. -/
  | powerCycle (rest : List Event) (ha : s.agenda = .powerCycle :: rest) : StepOutcome s (s.moveOn rest).powerCycle

theorem step_outcome {s t : State} (h : step s = .next t) : StepOutcome s t := by
  unfold step at h
  split at h <;> rename_i ha
  · exact .idle t ha (engineTurn_outcome h)
  · cases h
    exact .host _ _ ha
  · exact .engine _ t ha (engineTurn_outcome h)
  · unfold waitStep at h
    split at h
    · exact .poll _ t ha ‹_› (engineTurn_outcome h)
    · cases h
      exact .waited _ ha (by simpa [State.busy] using ‹¬ s.busy = true›)
  · cases h
    exact .assertReset _ ha
  · cases h
    exact .releaseReset _ ha
  · cases h
    exact .powerCycle _ ha

end Sys2Proof.Machine
end

