-- ==== Sys2Proof/Laws/Words.lean ====
section
/-! SUPPORT. Cutting words into fields and putting fields together (00_scope.md R7). -/

namespace Sys2Proof.Machine

/-- The low field of a concatenation. -/
theorem extract_append_low {n m : Nat} (a : BitVec n) (b : BitVec m) : (a ++ b).extractLsb' 0 m = b := by
  apply BitVec.eq_of_getLsbD_eq
  intro i hi
  simp [BitVec.getLsbD_append, hi]

/-- The high field of a concatenation. -/
theorem extract_append_high {n m : Nat} (a : BitVec n) (b : BitVec m) : (a ++ b).extractLsb' m n = a := by
  apply BitVec.eq_of_getLsbD_eq
  intro i hi
  simp [BitVec.getLsbD_append, hi]

/-- A command word is its RSVD field above its OPCODE field (30_encoding.md R80). -/
theorem word_eq_fields (w : Word) : w = rsvdField w ++ opcodeField w := by
  apply BitVec.eq_of_getLsbD_eq
  intro i hi
  simp only [rsvdField, opcodeField, BitVec.getLsbD_append, BitVec.getLsbD_extractLsb']
  by_cases h : i < 4
  · simp [h]
  · have h1 : i - 4 < 28 := by omega
    have h2 : 4 + (i - 4) = i := by omega
    simp [h, h1, h2]

/-- A byte read alone is zero-extended (20_memory.md R64). -/
theorem wordFromBytes_one (b : Byte) : wordFromBytes [b] = b.setWidth 32 := by
  simp [wordFromBytes]

theorem getLsbD_low (v : Word) (n i : Nat) (hi : i < 32) :
    (BitVec.ofNat 32 (v.toNat % 2 ^ n)).getLsbD i = (decide (i < n) && v.getLsbD i) := by
  rw [BitVec.getLsbD, BitVec.getLsbD, BitVec.toNat_ofNat, Nat.testBit_mod_two_pow, Nat.testBit_mod_two_pow]
  simp [hi]

/-- The low bytes of a word, put together again, are its low bits (20_memory.md R62, R64). -/
theorem wordFromBytes_wordBytes (v : Word) (w : Width) :
    wordFromBytes (wordBytes v w.bytes) = BitVec.ofNat 32 (v.toNat % 2 ^ (8 * w.bytes)) := by
  apply BitVec.eq_of_getLsbD_eq
  intro i hi
  rw [getLsbD_low _ _ _ hi]
  cases w <;> simp only [wordBytes, wordFromBytes, Width.bytes, List.range_succ, List.range_zero, List.nil_append,
    List.cons_append, List.map_cons, List.map_nil, List.foldr_cons, List.foldr_nil] <;>
  interval_cases i <;> simp

/-- Above the bytes a read moves, its word is zero (20_memory.md R64). -/
theorem wordFromBytes_toNat_lt (bs : List Byte) (h : bs.length ≤ 4) :
    (wordFromBytes bs).toNat < 2 ^ (8 * bs.length) := by
  induction bs with
  | nil => simp [wordFromBytes]
  | cons b bs ih =>
    have ih := ih (by simp at h; omega)
    have e : wordFromBytes (b :: bs) = wordFromBytes bs <<< 8 ||| b.setWidth 32 := rfl
    rw [e, BitVec.toNat_or, BitVec.toNat_shiftLeft, BitVec.toNat_setWidth]
    have hp : 2 ^ (8 * (b :: bs).length) = 2 ^ (8 * bs.length) * 256 := by
      rw [List.length_cons, Nat.mul_add, Nat.pow_add]
    have h8 : 256 ≤ 2 ^ (8 * (b :: bs).length) := by
      rw [hp]
      exact Nat.le_mul_of_pos_left _ (by positivity)
    refine Nat.or_lt_two_pow (lt_of_le_of_lt (Nat.mod_le _ _) ?_)
      (lt_of_le_of_lt (Nat.mod_le _ _) (lt_of_lt_of_le b.isLt h8))
    rw [Nat.shiftLeft_eq, hp]
    omega

/-- Byte k of a word put together from bytes is the k-th of them (20_memory.md R62). -/
theorem extract_wordFromBytes (bs : List Byte) (h : bs.length ≤ 4) (k : Nat) (hk : k < bs.length) :
    (wordFromBytes bs).extractLsb' (8 * k) 8 = bs[k] := by
  induction bs generalizing k with
  | nil => simp at hk
  | cons b bs ih =>
    have e : wordFromBytes (b :: bs) = wordFromBytes bs <<< 8 ||| b.setWidth 32 := rfl
    simp only [List.length_cons] at h hk
    ext i hi
    rw [e]
    cases k with
    | zero =>
      simp [hi]
      omega
    | succ k =>
      have := congrArg (fun x => BitVec.getLsbD x i) (ih (by omega) k (by omega))
      simp [hi] at this ⊢
      rw [← this]
      rw [show 8 * (k + 1) + i - 8 = 8 * k + i by omega]
      have h3 : b.getLsbD (8 * (k + 1) + i) = false := BitVec.getLsbD_of_ge _ _ (by omega)
      simp [h3]
      omega

end Sys2Proof.Machine
end

