-- ==== Sys2Proof/Tests/Slice0.lean ====
section
/-! SUPPORT. Tests on fixed values, and a witness for the hypotheses of every statement. Every expected value is from
spec/95_test_vectors.md (its vector's name stands in the comment) or worked by hand from the rule named. -/

namespace Sys2Proof.Tests

open Sys2Proof.Machine Sys2Proof.Claims

/-! ### Well-formedness: one ill-formed term for each check -/

/-- `GBLUR 0x000, 0x100, 3, 3`. -/
def goodCommand : Command := ⟨.gblur, 0, 0x100, 3, 3, 0, 0, false⟩

theorem test_command_well_formed : goodCommand.wellFormed = true := by decide
theorem test_command_top_of_range :
    Command.wellFormed ⟨.boxds, 0xFFFFFFFF, 0xFFFFFFFF, 0xFFFF, 0xFFFF, 0xFFFF, 0xFFFF, true⟩ = true := by decide
theorem test_src_too_wide : { goodCommand with src := 0x100000000 }.wellFormed = false := by decide
theorem test_dst_too_wide : { goodCommand with dst := 0x100000000 }.wellFormed = false := by decide
theorem test_w_too_wide : { goodCommand with w := 0x10000 }.wellFormed = false := by decide
theorem test_h_too_wide : { goodCommand with h := 0x10000 }.wellFormed = false := by decide
theorem test_tw_too_wide : { goodCommand with tw := 0x10000 }.wellFormed = false := by decide
theorem test_th_too_wide : { goodCommand with th := 0x10000 }.wellFormed = false := by decide

/-! ### Decoding: the words of 95_test_vectors.md section 2.1, bit by bit -/

theorem test_decode_gblur : decodeWord 0b00000000000000000000000000000001 = .ok .gblur := by decide
theorem test_decode_sobel : decodeWord 0b00000000000000000000000000000010 = .ok .sobel := by decide
theorem test_decode_nms : decodeWord 0b00000000000000000000000000000011 = .ok .nms := by decide
theorem test_decode_thresh : decodeWord 0b00000000000000000000000000000100 = .ok .thresh := by decide
theorem test_decode_hyst : decodeWord 0b00000000000000000000000000000101 = .ok .hyst := by decide
theorem test_decode_htone : decodeWord 0b00000000000000000000000000000110 = .ok .htone := by decide
theorem test_decode_fsdith : decodeWord 0b00000000000000000000000000000111 = .ok .fsdith := by decide
theorem test_decode_boxds : decodeWord 0b00000000000000000000000000001000 = .ok .boxds := by decide
theorem test_decode_zero : decodeWord 0x00000000 = .error .illegalOpcode := by decide
theorem test_decode_nine : decodeWord 0x00000009 = .error .illegalOpcode := by decide
theorem test_decode_fifteen : decodeWord 0x0000000F = .error .illegalOpcode := by decide
theorem test_decode_rsvd_low : decodeWord 0x00000011 = .error .reservedBits := by decide
theorem test_decode_rsvd_top : decodeWord 0x80000001 = .error .reservedBits := by decide
/-- Little-endian on the bus (20_memory.md R62). -/
theorem test_decode_bytes : decode [0x07, 0x00, 0x00, 0x00, 0xAB] = .ok (.fsdith, [0xAB]) := by decide
theorem test_decode_short : decode [0x07, 0x00, 0x00] = .error .tooShort := by decide
theorem test_decode_table_word : decodeTableWord 32 0x00000008 = some .boxds := by decide

/-! ### The machine used below -/

/-- Bytes from numbers. -/
def bytes (l : List Nat) : List Byte := l.map (BitVec.ofNat 8)

/-- The machine after reset with `data` written from offset `src` on, the operand registers set, and START accepted. -/
def started (w : Word) (src dst width height tw th : Nat) (data : List Nat) (orient : Orient) : State :=
  { State.reset with
    mem := Memory.storeBytes [] src (bytes data)
    cmd := w
    srcBase := BitVec.ofNat 32 src
    dstBase := BitVec.ofNat 32 dst
    srcDim := dimWord width height
    dstDim := dimWord tw th
    orient := orient }.acceptStart

/-- A command from offset 0 to offset 0x400, with no ORIENT. -/
def running (i : Instr) (width height tw th : Nat) (data : List Nat) : State :=
  started (encode i) 0 0x400 width height tw th data Orient.invalid

/-- The state after one step; the state itself if there is none. -/
def after (s : State) : State :=
  match step s with
  | .next t => t
  | .fault _ => s
  | .refused _ => s

/-- The `n` bytes from `base` on, as numbers. -/
def plane (s : State) (base n : Nat) : List (Option Nat) :=
  (List.range n).map fun k => (Memory.read s.mem (base + k)).map BitVec.toNat

/-- The destination bytes at 0x400 after the completion step. -/
def result (s : State) (n : Nat) : List (Option Nat) := plane (after s) 0x400 n

/-- A 3×3 ORIENT buffer with `g` at index 4. -/
def orientWith (g : Grad) : Orient :=
  ⟨true, 3, 3, [⟨0, 0⟩, ⟨0, 0⟩, ⟨0, 0⟩, ⟨0, 0⟩, g, ⟨0, 0⟩, ⟨0, 0⟩, ⟨0, 0⟩, ⟨0, 0⟩]⟩

/-! ### The eight commands -/

/-- GB5. -/
theorem test_gblur_truncates_and_copies_border :
    result (running .gblur 5 3 0 0 [0, 0, 255, 255, 255, 0, 0, 255, 255, 255, 0, 0, 255, 255, 255]) 15 =
      [0, 0, 255, 255, 255, 0, 63, 191, 255, 255, 0, 0, 255, 255, 255].map some := by decide +kernel

/-- GB8: GB1 in place. -/
theorem test_gblur_in_place :
    plane (after (started 1 0 0 3 3 0 0 [0, 0, 0, 0, 15, 0, 0, 0, 0] Orient.invalid)) 0 9 =
      [0, 0, 0, 0, 3, 0, 0, 0, 0].map some := by decide +kernel

/-- SB6: the magnitude rounds. -/
theorem test_sobel_rounds :
    result (running .sobel 3 3 0 0 [0, 0, 0, 0, 0, 0, 0, 0, 2]) 9 = [0, 0, 0, 0, 3, 0, 0, 0, 0].map some := by
  decide +kernel

/-- SB9, SB13: ORIENT_DATA at index 4, ORIENT_DIM and STATUS after. -/
theorem test_sobel_orient :
    { after (running .sobel 3 3 0 0 [0, 0, 0, 0, 0, 0, 255, 0, 0]) with orientIndex := 4 }.regValue .orientData =
        0x00FFFF01 ∧
      (after (running .sobel 3 3 0 0 [0, 0, 0, 0, 0, 0, 255, 0, 0])).regValue .orientDim = 0x00030003 ∧
      (after (running .sobel 3 3 0 0 [0, 0, 0, 0, 0, 0, 255, 0, 0])).statusWord = 0x0000000A := by decide +kernel

/-- NM4: the sector D1 compares north-east and south-west. -/
theorem test_nms_suppresses :
    result (started 3 0 0x400 3 3 0 0 [20, 10, 40, 30, 50, 70, 55, 20, 45] (orientWith ⟨12, 5⟩)) 9 =
      [0, 0, 0, 0, 0, 0, 0, 0, 0].map some := by decide +kernel

/-- NM6: the sector D2 compares north-west and south-east. -/
theorem test_nms_keeps :
    result (started 3 0 0x400 3 3 0 0 [20, 10, 40, 30, 50, 70, 55, 20, 45] (orientWith ⟨1, -1⟩)) 9 =
      [0, 0, 0, 0, 50, 0, 0, 0, 0].map some := by decide +kernel

/-- TH1. -/
theorem test_thresh :
    result (running .thresh 8 1 0 0 [0, 1, 101, 102, 168, 169, 254, 255]) 8 =
      [0, 0, 0, 0, 0, 255, 255, 255].map some := by decide +kernel

/-- A machine with other literals (00_scope.md R5). -/
def withLiterals (q : Literals) (s : State) : State := { s with params := { s.params with literals := q } }

/-- TH2: the command of an instance with LOW_T = 50 and HIGH_T = 100. -/
theorem test_thresh_variant :
    result (withLiterals { Literals.source with lowT := 50, highT := 100 } (running .thresh 4 1 0 0 [50, 51, 100, 101])) 4 =
      [0, 1, 1, 255].map some := by decide +kernel

/-- HY1. -/
theorem test_hyst :
    result (running .hyst 5 5 0 0
      [255, 0, 0, 0, 0, 0, 0, 0, 1, 0, 0, 255, 1, 1, 0, 0, 0, 7, 0, 0, 0, 0, 0, 0, 0]) 25 =
      [0, 0, 0, 0, 0, 0, 0, 0, 0, 0, 0, 255, 255, 0, 0, 0, 0, 0, 0, 0, 0, 0, 0, 0, 0].map some := by decide +kernel

/-- HY3: a border Strong promotes, and there is one pass only. -/
theorem test_hyst_one_pass :
    result (running .hyst 4 4 0 0 [255, 0, 0, 0, 0, 1, 0, 0, 0, 0, 1, 0, 0, 0, 0, 0]) 16 =
      [0, 0, 0, 0, 0, 255, 0, 0, 0, 0, 0, 0, 0, 0, 0, 0].map some := by decide +kernel

/-- HT1. -/
theorem test_htone_blocks :
    result (running .htone 2 2 0 0 [0, 51, 52, 255]) 16 =
      [0, 0, 0, 0, 0, 0, 0, 0, 255, 0, 255, 255, 0, 0, 255, 255].map some := by decide +kernel

/-- HT2: the bucket boundaries. -/
theorem test_htone_buckets :
    result (running .htone 8 1 0 0 [51, 52, 102, 103, 153, 154, 204, 205]) 32 =
      [0, 0, 255, 0, 255, 0, 255, 0, 255, 0, 255, 255, 255, 255, 255, 255,
        0, 0, 0, 0, 0, 0, 0, 255, 0, 255, 0, 255, 0, 255, 255, 255].map some := by decide +kernel

/-- FS10: all four shares, and the levels. -/
theorem test_fsdith :
    result (running .fsdith 3 2 0 0 [8, 5, 200, 30, 240, 250]) 6 = [0, 17, 204, 34, 238, 238].map some := by
  decide +kernel

/-- FS9: the errors of the 4×4 plane of 128 sum to 71955/4096, as binary32 arithmetic gives it. -/
theorem test_fsdith_error_sum :
    ((dither 17 4 4 fun _ _ => 128).map fun x => x.error.units).sum * 4096 = 71955 * (2 ^ 149 : Nat) := by decide +kernel

/-- BX2. -/
theorem test_boxds_truncates :
    result (running .boxds 3 3 3 1 [1, 2, 3, 4, 5, 6, 7, 8, 10]) 3 = [4, 5, 6].map some := by decide +kernel

/-- BX3. -/
theorem test_boxds_blocks :
    result (running .boxds 4 4 2 2 [1, 2, 3, 4, 5, 6, 7, 8, 9, 10, 11, 12, 13, 14, 15, 16]) 4 =
      [3, 5, 11, 13].map some := by decide +kernel

/-! ### The checks: the vectors of 95_test_vectors.md section 3.9 -/

/-- STATUS after the completion of a command that starts from reset, memory all written with 0 in its source. -/
def statusAfter (w : Word) (src dst width height tw th : Nat) : Word :=
  (after (started w src dst width height tw th (List.replicate 16 0) Orient.invalid)).statusWord

/-- ER1 and ER2. -/
theorem test_er_illegal :
    statusAfter 0x00000000 0 0x100 3 3 0 0 = 0x106 ∧ statusAfter 0x00000011 0 0x100 3 3 0 0 = 0x106 := by decide +kernel
/-- ER3, ER4, ER5 and ER15. -/
theorem test_er_dim :
    statusAfter 1 0 0x100 0 3 0 0 = 0x206 ∧ statusAfter 1 0 0x100 3 0 0 0 = 0x206 ∧
      statusAfter 1 0 0x100 65 1 0 0 = 0x206 ∧ statusAfter 3 0 0x100 0 3 0 0 = 0x206 := by decide +kernel
/-- ER7 to ER10. -/
theorem test_er_ratio :
    statusAfter 8 0 0x100 4 4 0 2 = 0x306 ∧ statusAfter 8 0 0x100 4 4 3 2 = 0x306 ∧
      statusAfter 8 0 0x100 4 4 8 8 = 0x306 ∧ statusAfter 8 0xFFF 0x100 4 4 0 2 = 0x306 := by decide +kernel
/-- ER11, ER12, ER19 and ER20. -/
theorem test_er_range :
    statusAfter 6 0 0xFF0 2 2 0 0 = 0x002 ∧ statusAfter 6 0 0xFF1 2 2 0 0 = 0x406 ∧
      statusAfter 1 0xFFC 0 2 2 0 0 = 0x002 ∧ statusAfter 1 0xFFD 0 2 2 0 0 = 0x406 := by decide +kernel
/-- ER13, ER17, ER18, ER21, ER22 and ER23. -/
theorem test_er_overlap :
    statusAfter 6 0 0 2 2 0 0 = 0x506 ∧ statusAfter 8 0 0 4 4 2 2 = 0x506 ∧ statusAfter 8 0 0 4 4 4 4 = 0x002 ∧
      statusAfter 1 0 1 3 3 0 0 = 0x506 ∧ statusAfter 1 0 9 3 3 0 0 = 0x002 ∧ statusAfter 6 0 4 2 2 0 0 = 0x002 := by
  decide +kernel
/-- ER14, ER16 and ER25. -/
theorem test_er_orient :
    statusAfter 3 0 0x100 3 3 0 0 = 0x606 ∧
      (after (started 3 0 0x100 4 3 0 0 (List.replicate 12 0) (orientWith ⟨0, 0⟩))).statusWord = 0x60E ∧
      (after (started 3 0 0x100 3 3 0 0 (List.replicate 9 0) (orientWith ⟨0, 0⟩))).statusWord = 0x00A := by
  decide +kernel

/-! ### Host accesses, interrupt and reset -/

/-- After reset, with what the host does first on the agenda. -/
def host (agenda : List Event) : State := { State.reset with agenda := agenda }

/-- The state after `n` steps. -/
def afterSteps : Nat → State → State
  | 0, s => s
  | n + 1, s => afterSteps n (after s)

/-- ST1. -/
theorem test_st1 :
    let s := afterSteps 3 (host [writeRegEvent Params.reference .cmd 0, writeRegEvent Params.reference .ctrl 5])
    s.statusWord = 0x106 ∧ s.ctrlWord = 4 ∧ s.irq = true := by decide +kernel

/-- ST2 and ST3, from a state as ST1 leaves it. -/
theorem test_st2_st3 :
    let s := { State.reset with done := true, err := true, errCode := 1, irqEn := true }
    (s.writeStatus 0x4).statusWord = 0x2 ∧ (s.writeStatus 0x4).irq = true ∧
      ((s.writeStatus 0x4).writeStatus 0x2).statusWord = 0 ∧ (s.writeStatus 0x2).statusWord = 0x104 := by decide +kernel

/-- ST4 and ST5, and the reserved bits of CTRL (section 2.2). -/
theorem test_ctrl_words :
    let s := { State.reset with done := true, err := true, errCode := 1, irqEn := true, cmdCount := 1 }
    (s.writeCtrl 0x3).statusWord = 0 ∧ (s.writeCtrl 0x3).cmdCount = 0 ∧ (s.writeCtrl 0x7).ctrlWord = 0 ∧
      (s.writeCtrl 0x0).irq = false ∧ (s.writeCtrl 0x0).done = true ∧ (s.writeCtrl 0xFFFFFFF8).ctrlWord = 0 := by
  decide +kernel

/-- ST6 and ST8: a START and a CMD write while BUSY = 1 leave the running command alone. -/
theorem test_start_ignored :
    let s := running .gblur 3 3 0 0 [0, 0, 0, 0, 15, 0, 0, 0, 0]
    ((s.setReg .cmd 9).writeCtrl 1).startIgnored = true ∧ ((s.setReg .cmd 9).writeCtrl 1).latch = s.latch ∧
      (after ((s.setReg .cmd 9).writeCtrl 1)).statusWord = 0x12 := by decide +kernel

/-- Section 2.5: the byte order. -/
theorem test_byte_order :
    let s := { State.reset with mem := Memory.storeBytes [] 0x120 [0x00, 0x00, 0x3F, 0xFF] }
    (hostAccess (.read 0x120 .word) s).reply = .data 0xFF3F0000 ∧
      (hostAccess (.read 0x122 .half) s).reply = .data 0xFF3F ∧ (hostAccess (.read 0x121 .half) s).reply = .refused := by
  decide +kernel

/-- Section 2.6. -/
theorem test_register_accesses :
    (hostAccess (.read 0x10000 .word) State.reset).reply = .data 0x52460001 ∧
      (hostAccess (.read 0x100FC .word) State.reset).reply = .data 0 ∧
      (hostAccess (.write 0x1002C .word 7) State.reset).cmdCount = 0 ∧
      (hostAccess (.read 0x10006 .word) State.reset).faults.badAccess = true ∧
      (hostAccess (.read 0x10008 .half) State.reset).reply = .refused := by decide +kernel

/-- Section 2.4: an ORIENT_DATA word with a negative gy. -/
theorem test_orient_word : Grad.word ⟨650, -50⟩ = 0xFFCE028A := by decide

/-- The accesses of `BOXDS.I 0x10, 0x20, 4, 2, 2, 1` (30_encoding.md R88). -/
theorem test_script_boxds :
    expandLine Params.reference (.op ⟨.boxds, 0x10, 0x20, 4, 2, 2, 1, true⟩) =
      [.host (.write 0x10010 .word 0x10), .host (.write 0x10014 .word 0x20), .host (.write 0x10018 .word 0x00020004),
        .host (.write 0x1001C .word 0x00010002), .host (.write 0x1000C .word 8), .host (.write 0x10004 .word 5)] := by
  decide +kernel

/-- `FMW`, a command and `WAIT`: the reply is STATUS with DONE alone (30_encoding.md R87, R88). -/
theorem test_script_runs :
    let s := afterSteps 8 (host (expandLine Params.reference (.fmw 0 [7]) ++
      expandLine Params.reference (.op ⟨.thresh, 0, 1, 1, 1, 0, 0, false⟩) ++ expandLine Params.reference .wait))
    s.agenda = [] ∧ s.reply = .data 0x2 ∧ plane s 0 2 = [some 7, some 0] := by decide +kernel

/-- The first instruction after reset, placed by `withFetchWord`, is the one given: its dimensions are 0 (log 3). -/
theorem test_fetch_word : (after (State.reset.withFetchWord 32 0x00000001)).statusWord = 0x206 := by decide +kernel

/-! ### Witnesses: for every statement with hypotheses, a concrete case that meets them all -/

/-- A latched 3×3 command `i` from 0 to `dst`, its source plane counting from 0. -/
def latched (i : Instr) (w h tw th : Nat) (dst : Nat) (orient : Orient) : Latch where
  cmd := encode i
  src := 0
  dst := BitVec.ofNat 32 dst
  w := BitVec.ofNat 16 w
  h := BitVec.ofNat 16 h
  tw := BitVec.ofNat 16 tw
  th := BitVec.ofNat 16 th
  source := (List.range (w * h)).map fun k => (k, BitVec.ofNat 8 k)
  orient := orient
  raced := false

theorem latched_span (i : Instr) (w h tw th dst : Nat) (o : Orient) :
    destSpan (latched i w h tw th dst o) = destCount i (latched i w h tw th dst o) := by
  have : commandOf? (latched i w h tw th dst o).cmd = some i := by
    show commandOf? (encode i) = some i
    cases i <;> decide
  simp only [destSpan, this]

/-- The machine with that command running. -/
def busyWith (l : Latch) : State := { State.reset with latch := some l }

/-- The counting plane of width `w`. -/
def counting (w : Nat) : Nat → Nat → Nat := fun r c => (r * w + c) % 256

theorem holdsSource_of (l : Latch) (S : Nat → Nat → Nat)
    (h : ∀ r < l.h.toNat, ∀ c < l.w.toNat,
      Memory.read l.source (l.src.toNat + (r * l.w.toNat + c)) = some (BitVec.ofNat 8 (S r c)) ∧ S r c < 256) :
    HoldsSource l S := by
  intro r c hr hc
  obtain ⟨h1, h2⟩ := h r hr c hc
  refine ⟨_, h1, ?_⟩
  rw [BitVec.toNat_ofNat]
  exact Nat.mod_eq_of_lt h2

/-- GBLUR, its destination next to its source. -/
theorem witness_Gblur :
    Ready .gblur (busyWith (latched .gblur 3 3 0 0 9 Orient.invalid)) (latched .gblur 3 3 0 0 9 Orient.invalid)
      (counting 3) := by
  refine ⟨rfl, rfl, fun e => ?_, holdsSource_of _ _ (by decide)⟩
  cases e <;> simp [Fails, latched, busyWith, State.reset, State.resetOf, Params.reference, destCount]

/-- SOBEL, in place. -/
theorem witness_Sobel :
    Ready .sobel (busyWith (latched .sobel 3 3 0 0 0 Orient.invalid)) (latched .sobel 3 3 0 0 0 Orient.invalid)
      (counting 3) := by
  refine ⟨rfl, rfl, fun e => ?_, holdsSource_of _ _ (by decide)⟩
  cases e <;> simp [Fails, latched, busyWith, State.reset, State.resetOf, Params.reference, destCount]

/-- NMS, with an ORIENT buffer of its shape, which holds a pair for every pixel. -/
theorem witness_Nms :
    Ready .nms (busyWith (latched .nms 3 3 0 0 9 (orientWith ⟨12, 5⟩))) (latched .nms 3 3 0 0 9 (orientWith ⟨12, 5⟩))
      (counting 3) ∧
    ∀ r c, r < 3 → c < 3 → (latched .nms 3 3 0 0 9 (orientWith ⟨12, 5⟩)).orient.pairs[r * 3 + c]? =
      some (if r = 1 ∧ c = 1 then ⟨12, 5⟩ else ⟨0, 0⟩) := by
  refine ⟨⟨rfl, rfl, fun e => ?_, holdsSource_of _ _ (by decide)⟩, ?_⟩
  · cases e <;> simp [Fails, latched, busyWith, State.reset, State.resetOf, Params.reference, destCount, orientWith]
  · intro r c hr hc
    interval_cases r <;> interval_cases c <;> rfl

/-- THRESH, its destination up to the end of frame memory. -/
theorem witness_Thresh :
    Ready .thresh (busyWith (latched .thresh 3 3 0 0 0xFF7 Orient.invalid))
      (latched .thresh 3 3 0 0 0xFF7 Orient.invalid) (counting 3) := by
  refine ⟨rfl, rfl, fun e => ?_, holdsSource_of _ _ (by decide)⟩
  cases e <;> simp [Fails, latched, busyWith, State.reset, State.resetOf, Params.reference, destCount]

/-- HYST, one row: every pixel is a border pixel. -/
theorem witness_Hyst :
    Ready .hyst (busyWith (latched .hyst 3 1 0 0 9 Orient.invalid)) (latched .hyst 3 1 0 0 9 Orient.invalid)
      (counting 3) := by
  refine ⟨rfl, rfl, fun e => ?_, holdsSource_of _ _ (by decide)⟩
  cases e <;> simp [Fails, latched, busyWith, State.reset, State.resetOf, Params.reference, destCount]

/-- HTONE, its destination next to its source. -/
theorem witness_Htone :
    Ready .htone (busyWith (latched .htone 2 2 0 0 4 Orient.invalid)) (latched .htone 2 2 0 0 4 Orient.invalid)
      (counting 2) := by
  refine ⟨rfl, rfl, fun e => ?_, holdsSource_of _ _ (by decide)⟩
  cases e <;> simp [Fails, latched, busyWith, State.reset, State.resetOf, Params.reference, destCount]

/-- FSDITH, the smallest plane. -/
theorem witness_Fsdith :
    Ready .fsdith (busyWith (latched .fsdith 1 1 0 0 1 Orient.invalid)) (latched .fsdith 1 1 0 0 1 Orient.invalid)
      (counting 1) := by
  refine ⟨rfl, rfl, fun e => ?_, holdsSource_of _ _ (by decide)⟩
  cases e <;> simp [Fails, latched, busyWith, State.reset, State.resetOf, Params.reference, destCount]

/-- The step of the hardware, and the largest one whose levels fit a sample. -/
theorem witness_Fsdith_step : 15 * (busyWith (latched .fsdith 1 1 0 0 1 Orient.invalid)).params.literals.fsStep ≤ 255 := by
  decide

/-- BOXDS, blocks of 2×2. -/
theorem witness_Boxds :
    Ready .boxds (busyWith (latched .boxds 4 2 2 1 8 Orient.invalid)) (latched .boxds 4 2 2 1 8 Orient.invalid)
      (counting 4) := by
  refine ⟨rfl, rfl, fun e => ?_, holdsSource_of _ _ (by decide)⟩
  cases e <;> simp [Fails, latched, busyWith, State.reset, State.resetOf, Params.reference, destCount]

/-- The result of a command that does not depend on memory at completion: any command that is ready. -/
theorem witness_ResultComesFromTheSnapshot : ∃ i s l S, Ready i s l S := ⟨_, _, _, _, witness_Gblur⟩

/-- The step of a latched command: with an empty agenda, and with the engine on it. -/
theorem witness_StepRunsTheLatchedCommand :
    EngineNext (busyWith (latched .gblur 3 3 0 0 9 Orient.invalid)) (busyWith (latched .gblur 3 3 0 0 9 Orient.invalid)) ∧
    EngineNext { busyWith (latched .gblur 3 3 0 0 9 Orient.invalid) with agenda := [.engine] }
      (busyWith (latched .gblur 3 3 0 0 9 Orient.invalid)) ∧
    (busyWith (latched .gblur 3 3 0 0 9 Orient.invalid)).latch = some (latched .gblur 3 3 0 0 9 Orient.invalid) ∧
    decodeWord (latched .gblur 3 3 0 0 9 Orient.invalid).cmd = .ok .gblur :=
  ⟨.inl ⟨rfl, rfl⟩, .inr ⟨[], rfl, rfl⟩, rfl, by decide⟩

/-- An illegal latched word: OPCODE out of range, and RSVD ≠ 0. -/
theorem witness_IllegalCommandWordIsReported :
    EngineNext (busyWith { latched .gblur 3 3 0 0 9 Orient.invalid with cmd := 9 })
      (busyWith { latched .gblur 3 3 0 0 9 Orient.invalid with cmd := 9 }) ∧
    commandOf? 9 = none ∧ commandOf? 0x80000001 = none :=
  ⟨.inl ⟨rfl, rfl⟩, by decide, by decide⟩

theorem witness_DecodeInvertsEncode : Instr.wellFormed .boxds = true := rfl

/-- Each failing check is the first one of some command: BAD_DIM with W = 0. -/
theorem witness_FirstFails_badDim :
    FirstFails Params.reference (some .gblur) (latched .gblur 0 3 0 0 9 Orient.invalid) .badDim := by
  refine ⟨by simp [Fails, latched], fun e h => ?_⟩
  cases e <;> simp_all [Fails, CmdError.code]

/-- BAD_RATIO with a target that does not divide. -/
theorem witness_FirstFails_badRatio :
    FirstFails Params.reference (some .boxds) (latched .boxds 4 4 3 2 16 Orient.invalid) .badRatio := by
  refine ⟨by simp [Fails, latched], fun e h => ?_⟩
  cases e <;> simp_all [Fails, CmdError.code, latched, Params.reference]

/-- RANGE by one byte. -/
theorem witness_FirstFails_range :
    FirstFails Params.reference (some .htone) (latched .htone 2 2 0 0 0xFF1 Orient.invalid) .range := by
  refine ⟨by simp [Fails, latched, Params.reference, destCount], fun e h => ?_⟩
  cases e <;> simp_all [Fails, CmdError.code, latched, Params.reference]

/-- OVERLAP by one byte. -/
theorem witness_FirstFails_overlap :
    FirstFails Params.reference (some .gblur) (latched .gblur 3 3 0 0 8 Orient.invalid) .overlap := by
  refine ⟨by simp [Fails, latched, destCount], fun e h => ?_⟩
  cases e <;> simp_all [Fails, CmdError.code, latched, Params.reference, destCount]

/-- NO_ORIENT after reset. -/
theorem witness_FirstFails_noOrient :
    FirstFails Params.reference (some .nms) (latched .nms 3 3 0 0 9 Orient.invalid) .noOrient := by
  refine ⟨by simp [Fails, latched, Orient.invalid], fun e h => ?_⟩
  cases e <;> simp_all [Fails, CmdError.code, latched, Params.reference, destCount]

/-- ILLEGAL_CMD, the outcome of an illegal word. -/
theorem witness_FirstFails_illegalCmd :
    FirstFails Params.reference none (latched .gblur 3 3 0 0 9 Orient.invalid) .illegalCmd := by
  refine ⟨by simp [Fails], fun e h => ?_⟩
  cases e <;> simp_all [CmdError.code]

/-- The first clause of the same statement: the engine acts next, on a legal word and on an illegal one. -/
theorem witness_FailedCheck_step :
    EngineNext (busyWith (latched .gblur 0 3 0 0 9 Orient.invalid)) (busyWith (latched .gblur 0 3 0 0 9 Orient.invalid)) ∧
    FirstFails Params.reference (commandOf? (latched .gblur 0 3 0 0 9 Orient.invalid).cmd)
      (latched .gblur 0 3 0 0 9 Orient.invalid) .badDim ∧
    FirstFails Params.reference (commandOf? 0) { latched .gblur 3 3 0 0 9 Orient.invalid with cmd := 0 } .illegalCmd := by
  refine ⟨.inl ⟨rfl, rfl⟩, ?_, ⟨show commandOf? 0 = none by decide, fun e h => ?_⟩⟩
  · rw [show commandOf? (latched .gblur 0 3 0 0 9 Orient.invalid).cmd = some .gblur by decide]
    exact witness_FirstFails_badDim
  · cases e <;> simp_all [CmdError.code]

/-- A SOBEL that ends with an error, one byte past the end of frame memory. -/
theorem witness_Sobel_fails :
    FirstFails Params.reference (some .sobel) (latched .sobel 3 3 0 0 0xFF8 Orient.invalid) .range := by
  refine ⟨by simp [Fails, latched, Params.reference, destCount], fun e h => ?_⟩
  cases e <;> simp_all [Fails, CmdError.code, latched, Params.reference]

theorem witness_FailedCheckChangesOnlyStatusAndCount :
    (busyWith (latched .gblur 0 3 0 0 9 Orient.invalid)).latch = some (latched .gblur 0 3 0 0 9 Orient.invalid) ∧
    FirstFails (busyWith (latched .gblur 0 3 0 0 9 Orient.invalid)).params (some .gblur)
      (latched .gblur 0 3 0 0 9 Orient.invalid) .badDim := ⟨rfl, witness_FirstFails_badDim⟩

theorem witness_EveryCommandCompletesWithinItsRegion :
    ∃ l, (busyWith (latched .gblur 3 3 0 0 9 Orient.invalid)).latch = some l := ⟨_, rfl⟩

/-- A command whose source plane lacks its last byte. -/
theorem witness_UnwrittenSourceRecordsUninitRead :
    Passes Params.reference .gblur { latched .gblur 3 3 0 0 9 Orient.invalid with source := [] } ∧
    8 < (latched .gblur 3 3 0 0 9 Orient.invalid).w.toNat * (latched .gblur 3 3 0 0 9 Orient.invalid).h.toNat ∧
    Memory.read [] ((latched .gblur 3 3 0 0 9 Orient.invalid).src.toNat + 8) = none := by
  refine ⟨fun e => ?_, by decide, rfl⟩
  cases e <;> simp [Fails, latched, Params.reference, destCount]

/-- The same machine as `witness_Gblur`, hit by a race. -/
theorem witness_RacedCommandStillCompletes :
    Passes Params.reference .gblur { latched .gblur 3 3 0 0 9 Orient.invalid with raced := true } ∧
    HoldsSource { latched .gblur 3 3 0 0 9 Orient.invalid with raced := true } (counting 3) := by
  refine ⟨fun e => ?_, holdsSource_of _ _ (by decide)⟩
  cases e <;> simp [Fails, latched, Params.reference, destCount]

theorem witness_busy : (busyWith (latched .gblur 3 3 0 0 9 Orient.invalid)).busy = true := rfl

theorem witness_CommandReadsOnlyLatchedOperands : ∃ s : State, s.busy = true := ⟨_, witness_busy⟩

/-- The host's next access is a register write, after reset and while a command runs. -/
theorem witness_HostNext_write (r : Reg) (v : Word) :
    HostNext (host [writeRegEvent Params.reference r v]) (writeRegAccess Params.reference r v) [] ∧
    HostNext { busyWith (latched .gblur 3 3 0 0 9 Orient.invalid) with
      agenda := [writeRegEvent Params.reference r v] } (writeRegAccess Params.reference r v) [] :=
  ⟨⟨rfl, rfl⟩, ⟨rfl, rfl⟩⟩

/-- A START word with IRQ_EN, and one without, on an idle machine. -/
theorem witness_StartAcceptanceLatchesTheCommand :
    HostNext (host [writeRegEvent Params.reference .ctrl 5]) (writeRegAccess Params.reference .ctrl 5) [] ∧
    (host [writeRegEvent Params.reference .ctrl 5]).busy = false ∧
    ((5 : Word).getLsbD 0 = true ∧ (5 : Word).getLsbD 1 = false) ∧
    ((1 : Word).getLsbD 0 = true ∧ (1 : Word).getLsbD 1 = false) := by
  refine ⟨⟨rfl, rfl⟩, rfl, by decide, by decide⟩

theorem witness_StartWhileBusyIsIgnored :
    HostNext { busyWith (latched .gblur 3 3 0 0 9 Orient.invalid) with
      agenda := [writeRegEvent Params.reference .ctrl 1] } (writeRegAccess Params.reference .ctrl 1) [] ∧
    (busyWith (latched .gblur 3 3 0 0 9 Orient.invalid)).busy = true ∧
    (1 : Word).getLsbD 0 = true ∧ (1 : Word).getLsbD 1 = false := ⟨⟨rfl, rfl⟩, rfl, by decide, by decide⟩

/-- The words of both clauses: soft reset with START set, and IRQ_EN alone. -/
theorem witness_CtrlWriteActsInOrder :
    HostNext (host [writeRegEvent Params.reference .ctrl 3]) (writeRegAccess Params.reference .ctrl 3) [] ∧
    (3 : Word).getLsbD 1 = true ∧ ((4 : Word).getLsbD 1 = false ∧ (4 : Word).getLsbD 0 = false) :=
  ⟨⟨rfl, rfl⟩, by decide, by decide⟩

theorem witness_StatusWriteClearsWhereOne :
    HostNext (host [writeRegEvent Params.reference .status 0x16]) (writeRegAccess Params.reference .status 0x16) [] :=
  ⟨rfl, rfl⟩

/-- A register read; ORIENT_DATA with no SOBEL running, and with one. -/
theorem witness_RegisterReadHasNoSideEffect :
    HostNext (host [.host (readRegAccess Params.reference .orientData)])
      (readRegAccess Params.reference .orientData) [] ∧
    (host [.host (readRegAccess Params.reference .orientData)]).sobelRunning = false ∧
    (busyWith (latched .sobel 3 3 0 0 9 Orient.invalid)).sobelRunning = true := ⟨⟨rfl, rfl⟩, rfl, by decide⟩

/-- All six read-write operand registers. -/
theorem witness_OperandRegistersHoldTheWrittenValue :
    HostNext (host [writeRegEvent Params.reference .cmd 0x80000001]) (writeRegAccess Params.reference .cmd 0x80000001)
      [] ∧
    ∀ r ∈ [Reg.cmd, .srcBase, .dstBase, .srcDim, .dstDim, .orientIndex], storedIn State.reset r ≠ none :=
  ⟨⟨rfl, rfl⟩, by decide⟩

/-- The offsets of every clause: ID, ORIENT_DIM, ORIENT_DATA, CMD_COUNT, and both ends of the reserved slots. -/
theorem witness_ReadOnlyRegistersIgnoreWrites :
    (∀ off ∈ [0x00, 0x20, 0x28, 0x2C, 0x30, 0xFC],
      HostNext (host [.host (.write (Params.reference.regBase + off) .word 7)])
        (.write (Params.reference.regBase + off) .word 7) [] ∧ off % 4 = 0 ∧ off < 0x100 ∧
      (off = 0x00 ∨ off = 0x20 ∨ off = 0x28 ∨ 0x2C ≤ off)) ∧
    ∀ off ∈ [0x00, 0x30, 0xFC],
      HostNext (host [.host (.read (Params.reference.regBase + off) .word)])
        (.read (Params.reference.regBase + off) .word) [] := by
  refine ⟨fun off h => ⟨⟨rfl, rfl⟩, ?_⟩, fun off _ => ⟨rfl, rfl⟩⟩
  revert off
  decide

/-- The clauses of the ORIENT registers: a valid buffer with an index at its last entry, one past it, and no buffer. -/
theorem witness_OrientRegistersReadTheBuffer :
    (orientWith ⟨12, 5⟩).valid = true ∧ (8 : Word).toNat < 3 * 3 ∧ (orientWith ⟨12, 5⟩).pairs[8]? = some ⟨0, 0⟩ ∧
    Grad.inRange ⟨0, 0⟩ ∧ Grad.inRange ⟨1020, -1020⟩ ∧ 3 * 3 ≤ (9 : Word).toNat ∧ Orient.invalid.valid = false := by
  decide

/-- A narrow access, a misaligned one, and both at the last byte of the window. -/
theorem witness_BadRegisterAccessIsRefused :
    HostNext (host [.host (.read (Params.reference.regBase + 0xFF) .byte)])
      (.read (Params.reference.regBase + 0xFF) .byte) [] ∧
    HostNext (host [.host (.write (Params.reference.regBase + 0x06) .word 1)])
      (.write (Params.reference.regBase + 0x06) .word 1) [] ∧
    ((Width.byte ≠ .word ∨ 0xFF % 4 ≠ 0) ∧ (Width.word ≠ .word ∨ 0x06 % 4 ≠ 0)) :=
  ⟨⟨rfl, rfl⟩, ⟨rfl, rfl⟩, by decide⟩

/-- A misaligned access inside frame memory, an aligned one at its end, and an aligned one that begins inside and ends outside a frame
memory of 0x1002 bytes. -/
theorem witness_BadFrameAccessIsRefused :
    HostNext (host [.host (.read (Params.reference.fmemBase + 0x121) .half)])
      (.read (Params.reference.fmemBase + 0x121) .half) [] ∧
    HostNext (host [.host (.write (Params.reference.fmemBase + 0x1000) .word 1)])
      (.write (Params.reference.fmemBase + 0x1000) .word 1) [] ∧
    Params.reference.fmemBase + 0x1000 < Params.reference.regBase ∧
    0x121 % Width.half.bytes ≠ 0 ∧ Params.reference.fmemBytes < 0x1000 + Width.word.bytes ∧
    HostNext (State.resetOf { Params.reference with fmemBytes := 0x1002 }
        |>.moveOn [.host (.write (Params.reference.fmemBase + 0x1000) .word 1)])
      (.write (Params.reference.fmemBase + 0x1000) .word 1) [] ∧
    0x1000 % Width.word.bytes = 0 ∧ 0x1000 < 0x1002 ∧ 0x1002 < 0x1000 + Width.word.bytes :=
  ⟨⟨rfl, rfl⟩, ⟨rfl, rfl⟩, by decide, by decide, by decide, ⟨rfl, rfl⟩, by decide⟩

theorem witness_params : Params.reference.Valid := ⟨by decide, by decide, by decide, by decide, by decide⟩

/-- The last word of frame memory, while a command runs elsewhere. -/
theorem witness_FrameWriteThenReadGivesTheValue :
    Params.reference.Valid ∧
    HostNext { busyWith (latched .gblur 3 3 0 0 9 Orient.invalid) with
        agenda := [.host (.write (Params.reference.fmemBase + 0xFFC) .word 0x12345678),
          .host (.read (Params.reference.fmemBase + 0xFFC) .word)] }
      (.write (Params.reference.fmemBase + 0xFFC) .word 0x12345678)
      [.host (.read (Params.reference.fmemBase + 0xFFC) .word)] ∧
    0xFFC % Width.word.bytes = 0 ∧ 0xFFC + Width.word.bytes ≤ Params.reference.fmemBytes ∧
    ∀ l k, (busyWith (latched .gblur 3 3 0 0 9 Orient.invalid)).latch = some l → k < Width.word.bytes →
      ¬ InSource l (0xFFC + k) ∧ ¬ InDest l (0xFFC + k) := by
  refine ⟨witness_params, ⟨rfl, rfl⟩, by decide, by decide, fun l k hl _ => ?_⟩
  cases hl
  have hs : destSpan (latched .gblur 3 3 0 0 9 Orient.invalid) = 9 := by rw [latched_span]; decide
  refine ⟨fun h => absurd h.2 ?_, fun h => absurd h.2 ?_⟩
  · show ¬ 0xFFC + k < 0 + 3 * 3
    omega
  · rw [hs]
    show ¬ 0xFFC + k < 9 + 9
    omega

/-- A word read of which the last byte alone lies in the destination region, which begins at 11, and a read with no command running. -/
theorem witness_BusyReadOutsideDestinationIsCurrent :
    HostNext { busyWith (latched .gblur 3 3 0 0 11 Orient.invalid) with
        mem := [(10, 7)], agenda := [.host (.read (Params.reference.fmemBase + 8) .word)] }
      (.read (Params.reference.fmemBase + 8) .word) [] ∧ 8 % Width.word.bytes = 0 ∧
    8 + Width.word.bytes ≤ Params.reference.fmemBytes ∧ 2 < Width.word.bytes ∧
    ¬ InDest (latched .gblur 3 3 0 0 11 Orient.invalid) (8 + 2) ∧ InDest (latched .gblur 3 3 0 0 11 Orient.invalid) (8 + 3) ∧
    Memory.read [(10, 7)] (8 + 2) = some 7 ∧
    HostNext { host [.host (.read (Params.reference.fmemBase + 10) .byte)] with mem := [(10, 7)] }
      (.read (Params.reference.fmemBase + 10) .byte) [] ∧
    ∀ l, State.reset.latch = some l → ¬ InDest l (10 + 0) := by
  refine ⟨⟨rfl, rfl⟩, by decide, by decide, by decide, fun h => absurd h.1 (by decide), ⟨by decide, ?_⟩, rfl, ⟨rfl, rfl⟩,
    nofun⟩
  rw [latched_span]
  decide

/-- A byte write at the end of the source region, a word write across the end of the destination region (9 to 17), and a byte write into
the source region of an illegal word. -/
theorem witness_HostRaceIsRecorded :
    HostNext { busyWith (latched .gblur 3 3 0 0 9 Orient.invalid) with
        agenda := [.host (.write (Params.reference.fmemBase + 16) .word 1)] }
      (.write (Params.reference.fmemBase + 16) .word 1) [] ∧
    16 % Width.word.bytes = 0 ∧ 16 + Width.word.bytes ≤ Params.reference.fmemBytes ∧
    InSource (latched .gblur 3 3 0 0 9 Orient.invalid) (8 + 0) ∧ InDest (latched .gblur 3 3 0 0 9 Orient.invalid) (16 + 1) ∧
    ¬ InDest (latched .gblur 3 3 0 0 9 Orient.invalid) (16 + 2) ∧
    InSource { latched .gblur 3 3 0 0 9 Orient.invalid with cmd := 9 } (8 + 0) := by
  refine ⟨⟨rfl, rfl⟩, by decide, by decide, ⟨by decide, by decide⟩, ⟨by decide, ?_⟩, fun h => absurd h.2 ?_,
    ⟨by decide, by decide⟩⟩ <;> rw [latched_span] <;> decide

theorem witness_InterruptFollowsCompletion :
    (busyWith (latched .gblur 3 3 0 0 9 Orient.invalid)).busy = true ∧ (2 : Word).getLsbD 1 = true :=
  ⟨rfl, by decide⟩

/-- A soft reset and a hard reset with no command running. -/
theorem witness_IdleResetClearsRegistersOnly :
    HostNext (host [writeRegEvent Params.reference .ctrl 2]) (writeRegAccess Params.reference .ctrl 2) [] ∧
    (2 : Word).getLsbD 1 = true ∧ (host [.assertReset]).agenda = .assertReset :: [] ∧
    (host [.assertReset]).busy = false := ⟨⟨rfl, rfl⟩, by decide, rfl, rfl⟩

/-- An aborted command with and without a race, on a byte of its destination region and one past it, and an illegal word. -/
theorem witness_AbortTouchesOnlyTheDestination :
    (busyWith { latched .gblur 3 3 0 0 9 Orient.invalid with raced := true }).latch =
      some { latched .gblur 3 3 0 0 9 Orient.invalid with raced := true } ∧
    InDest (latched .gblur 3 3 0 0 9 Orient.invalid) 17 ∧ 17 < Params.reference.fmemBytes ∧
    ¬ InDest (latched .gblur 3 3 0 0 9 Orient.invalid) 18 ∧
    (busyWith { latched .gblur 3 3 0 0 9 Orient.invalid with cmd := 9 }).latch =
      some { latched .gblur 3 3 0 0 9 Orient.invalid with cmd := 9 } ∧ commandOf? 9 = none ∧
    { busyWith (latched .gblur 3 3 0 0 9 Orient.invalid) with agenda := [.assertReset] }.agenda =
      .assertReset :: [] := by
  refine ⟨rfl, ⟨by decide, ?_⟩, by decide, fun h => absurd h.2 ?_, rfl, by decide, rfl⟩ <;> rw [latched_span] <;> decide

theorem witness_HardResetRefusesEveryAccess :
    { host [.host (.read 0x10000 .word), .releaseReset] with hardReset := true }.agenda =
      .host (.read 0x10000 .word) :: [.releaseReset] ∧ (host [.releaseReset]).agenda = .releaseReset :: [] :=
  ⟨rfl, rfl⟩

theorem witness_PowerCycleEmptiesFrameMemory : (host [.powerCycle]).agenda = .powerCycle :: [] := rfl

/-- A script line of each shape: with and without DST_DIM, with and without the suffix. -/
theorem witness_ScriptCommandStartsWithItsOperands :
    Command.wellFormed ⟨.boxds, 0, 0x20, 4, 4, 2, 2, true⟩ = true ∧ goodCommand.wellFormed = true ∧
    (host (expandLine Params.reference (.op ⟨.boxds, 0, 0x20, 4, 4, 2, 2, true⟩) ++ [])).busy = false ∧
    (host (expandLine Params.reference (.op goodCommand) ++ [])).hardReset = false := ⟨by decide, by decide, rfl, rfl⟩

/-- The whole of `ScriptCommandStartsWithItsOperands` on one line: the six accesses latch the operands. -/
theorem test_script_latches :
    let s := afterSteps 6 (host (expandLine Params.reference (.op ⟨.boxds, 0, 0x20, 4, 3, 2, 1, true⟩)))
    (s.latch.map fun l => (l.cmd, l.src, l.dst, l.w, l.h, l.tw, l.th)) = some (8, 0, 0x20, 4, 3, 2, 1) ∧
      s.irqEn = true := by decide +kernel

/-- An invariant state that steps: the machine after reset. -/
theorem witness_EveryStepKeepsTheInvariant : State.reset.Inv ∧ step State.reset = .next State.reset := by
  refine ⟨⟨witness_params, List.Pairwise.nil, ?_, ?_, ?_, ⟨?_, rfl, ?_, ?_⟩, ?_, ?_⟩, rfl⟩ <;>
    simp [State.reset, State.resetOf, Orient.invalid, State.busy, Memory.below]

theorem witness_ResetHasTheInvariant : Params.reference.Valid := witness_params

/-- A step from a state in which all three faults are recorded. -/
theorem witness_FaultsAreNeverRemoved :
    step { State.reset with faults := ⟨true, true, true⟩, agenda := [.assertReset] } =
      .next { State.reset with faults := ⟨true, true, true⟩, agenda := [], hardReset := true } := rfl

/-- Both ways the ORIENT buffer changes: a reset, and a SOBEL. -/
theorem witness_OnlySobelAndResetChangeOrient :
    (after { State.reset with orient := orientWith ⟨12, 5⟩, agenda := [.assertReset] }).orient ≠ orientWith ⟨12, 5⟩ ∧
    (after (busyWith (latched .sobel 3 3 0 0 9 Orient.invalid))).orient ≠ Orient.invalid := by decide +kernel

/-- The three ways of CMD_COUNT: it stays, it counts a completion, it is reset. -/
theorem witness_CmdCountCountsCompletions :
    (after { State.reset with cmdCount := 5 }).regValue .cmdCount = 5 ∧
    (after { busyWith (latched .gblur 3 3 0 0 9 Orient.invalid) with cmdCount := 0xFFFFFFFF }).cmdCount = 0 ∧
    (after { State.reset with cmdCount := 5, agenda := [.assertReset] }).cmdCount = 0 := by decide +kernel

theorem witness_BusyEngineCompletes :
    EngineNext (busyWith (latched .gblur 3 3 0 0 9 Orient.invalid)) (busyWith (latched .gblur 3 3 0 0 9 Orient.invalid)) ∧
    (busyWith (latched .gblur 3 3 0 0 9 Orient.invalid)).busy = true := ⟨.inl ⟨rfl, rfl⟩, rfl⟩

/-- A command that runs before and after a step, and one that a step accepts. -/
theorem witness_RunningCommandIsNeverReplaced :
    (after { busyWith (latched .gblur 3 3 0 0 9 Orient.invalid) with agenda := [.releaseReset] }).latch =
      some (latched .gblur 3 3 0 0 9 Orient.invalid) ∧
    (after (host [writeRegEvent Params.reference .ctrl 1])).latch.isSome = true := by decide +kernel

/-- A WAIT with a command running, with none, and while the hard reset is asserted. -/
theorem witness_WaitEndsWithBusyClear :
    { busyWith (latched .gblur 3 3 0 0 9 Orient.invalid) with agenda := [.wait] }.agenda = .wait :: [] ∧
    (busyWith (latched .gblur 3 3 0 0 9 Orient.invalid)).busy = true ∧
    (busyWith (latched .gblur 3 3 0 0 9 Orient.invalid)).hardReset = false ∧
    (host [.wait]).agenda = .wait :: [] ∧ (host [.wait]).busy = false ∧ (host [.wait]).hardReset = false ∧
    { host [.wait] with hardReset := true }.busy = false := ⟨rfl, rfl, rfl, rfl, rfl, rfl, rfl⟩

/-- n = 1, n = 0, and n on both sides of the clamp (SB10: 65268, SB11: 65288). -/
theorem witness_MagnitudeIsTheRoundedRoot :
    Grad.normSq ⟨1, 0⟩ = 1 ∧ Grad.normSq ⟨0, 0⟩ = 0 ∧ Grad.normSq ⟨252, 42⟩ = 65268 ∧ Grad.normSq ⟨242, 82⟩ = 65288 := by
  decide

/-- The source's V. -/
theorem witness_ThresholdConstantsComeFromTheFormula :
    4 * (337 * 337) ≤ 7 * (255 * 255) ∧ 7 * (255 * 255) < 4 * ((337 + 1) * (337 + 1)) := by decide

theorem witness_ClassIsMonotonic : (50 : Nat) ≤ 51 := by decide

/-- The level of the tie is among the sixteen (FS4), for the step of the hardware and for another one. -/
theorem witness_QuantIsTheNearestLevel :
    (1 ≤ 17 ∧ 1 ≤ 15) ∧ quant 17 ⟨17 * 2 ^ 148⟩ = 17 * 1 ∧ quant 16 ⟨8 * 2 ^ 149⟩ = 16 * 1 := by decide +kernel

/-- FS4's tie: 17/2 is as near to 0 as to 17, and goes up; the clamp at 258.5 (FS7). -/
theorem test_quant_tie_and_clamp :
    quant 17 ⟨17 * 2 ^ 148⟩ = 17 ∧ quant 17 ⟨517 * 2 ^ 148⟩ = 255 ∧ quant 17 ⟨-(2 ^ 149)⟩ = 0 := by decide +kernel

/-- A tie of the rounding, at 2^24 + 1, and a value to compare with. -/
theorem witness_Fl32IsNearestTiesToEven :
    Representable (2 ^ 24 + 2) ∧ (2 ^ 24 + 2 : ℤ) ≠ (fl32 (2 ^ 24 + 1) 0).units ∧
    |(2 ^ 24 + 1 : ℤ) - (fl32 (2 ^ 24 + 1) 0).units * 2 ^ 0| = |(2 ^ 24 + 1 : ℤ) - (2 ^ 24 + 2) * 2 ^ 0| :=
  ⟨⟨2 ^ 23 + 1, 1, by norm_num, by norm_num⟩, by decide +kernel, by decide +kernel⟩

/-- The largest field value in exact arithmetic (40_command_common.md R108), and the bound itself, 510. -/
theorem witness_ErrorSubtractionIsExact :
    Representable (527 * 2 ^ 148) ∧ (527 * 2 ^ 148 : ℤ) ≤ 30 * (17 : ℕ) * 2 ^ 149 ∧
    Representable (510 * 2 ^ 149) ∧ (510 * 2 ^ 149 : ℤ) ≤ 30 * (17 : ℕ) * 2 ^ 149 ∧ 15 * 17 ≤ 255 :=
  ⟨⟨527, 148, by norm_num, by norm_num⟩, by norm_num, ⟨510, 149, by norm_num, by norm_num⟩, by norm_num, by norm_num⟩

/-- A block of one sample, and one with two bounds. -/
theorem witness_BoxAverageLiesWithinItsBlock :
    (0 < 1) ∧ ∀ a b, a < 2 → b < 2 → 1 ≤ counting 2 (0 * 2 + a) (0 * 2 + b) + 1 ∧ counting 2 (0 * 2 + a) (0 * 2 + b) ≤ 3 := by
  refine ⟨by decide, fun a b ha hb => ?_⟩
  interval_cases a <;> interval_cases b <;> decide

end Sys2Proof.Tests
end

section
/-! PROOFS. Scope (00_scope.md): the rounding of the binary32 arithmetic of R9. -/

namespace Sys2Proof.Machine

open Sys2Proof.Claims

/-! ### Rounding on the grid of multiples of 2^sh -/

/-- What `roundShift` answers: the lower or the upper neighbour, each only within a half and, at the tie, only when even. -/
theorem roundShift_cases (n sh : Nat) :
    (roundShift n sh = n / 2 ^ sh ∧ 2 * (n % 2 ^ sh) ≤ 2 ^ sh ∧ (2 * (n % 2 ^ sh) = 2 ^ sh → 2 ∣ n / 2 ^ sh)) ∨
    (roundShift n sh = n / 2 ^ sh + 1 ∧ 2 ^ sh ≤ 2 * (n % 2 ^ sh) ∧
      (2 * (n % 2 ^ sh) = 2 ^ sh → 2 ∣ n / 2 ^ sh + 1)) := by
  simp only [roundShift, Nat.pow_eq]
  split_ifs <;> omega

/-- With q·d and (q + 1)·d the grid neighbours of q·d + r, and R·d the nearer of them, the even one at a tie: no integer `u`
outside the gap is nearer, and one as near is the other neighbour, so that 2·(u − R·d) divides R·d. -/
theorem nearest_neighbour {q r d R u : ℤ} (h0 : 0 ≤ r) (hlt : r < d)
    (hR : (R = q ∧ 2 * r ≤ d ∧ (2 * r = d → 2 ∣ q)) ∨ (R = q + 1 ∧ d ≤ 2 * r ∧ (2 * r = d → 2 ∣ q + 1)))
    (hu : u ≤ q * d ∨ (q + 1) * d ≤ u) :
    |q * d + r - R * d| ≤ |q * d + r - u| ∧
      (u ≠ R * d → |q * d + r - R * d| = |q * d + r - u| → 2 * (u - R * d) ∣ R * d) := by
  have habs := abs_cases (q * d + r - u)
  rw [add_one_mul] at hu
  obtain ⟨rfl, hle, heven⟩ | ⟨rfl, hle, heven⟩ := hR
  · rw [add_sub_cancel_left, abs_of_nonneg h0]
    refine ⟨by omega, fun hne htie => ?_⟩
    obtain ⟨hu', hr⟩ : u = R * d + d ∧ 2 * r = d := by omega
    rw [hu', add_sub_cancel_left]
    exact mul_dvd_mul_right (heven hr) _
  · rw [add_one_mul, add_sub_add_left_eq_sub, abs_of_neg (by omega)]
    refine ⟨by omega, fun hne htie => ?_⟩
    obtain ⟨hu', hr⟩ : u = q * d ∧ 2 * r = d := by omega
    rw [hu', sub_add_cancel_left, mul_neg, neg_dvd, ← add_one_mul]
    exact mul_dvd_mul_right (heven hr) _

/-- `roundShift` is nearest, ties to even, against every integer outside the gap of `n`. -/
theorem roundShift_nearest (n sh : Nat) {u : ℤ}
    (hu : u ≤ (n / 2 ^ sh : ℕ) * 2 ^ sh ∨ ((n / 2 ^ sh : ℕ) + 1) * 2 ^ sh ≤ u) :
    |n - (roundShift n sh : ℤ) * 2 ^ sh| ≤ |n - u| ∧
      (u ≠ roundShift n sh * 2 ^ sh → |n - (roundShift n sh : ℤ) * 2 ^ sh| = |n - u| →
        2 * (u - roundShift n sh * 2 ^ sh) ∣ roundShift n sh * 2 ^ sh) := by
  have hn : ((n / 2 ^ sh : ℕ) : ℤ) * 2 ^ sh + (n % 2 ^ sh : ℕ) = n := by
    exact_mod_cast Nat.div_add_mod' n (2 ^ sh)
  have hlt : n % 2 ^ sh < 2 ^ sh := Nat.mod_lt _ (Nat.two_pow_pos sh)
  have hnear := nearest_neighbour (R := roundShift n sh) (Int.natCast_nonneg (n % 2 ^ sh)) (by exact_mod_cast hlt)
    (by exact_mod_cast roundShift_cases n sh) hu
  rwa [hn] at hnear

/-! ### The grid of `roundPlace`, and the values of binary32 -/

theorem le_roundPlace (n j : Nat) : j ≤ roundPlace n j := le_max_left _ _

/-- Below the last bit kept stand at most 24 bits of `n`. -/
theorem div_two_pow_roundPlace_lt (n j : Nat) : n / 2 ^ roundPlace n j < 2 ^ 24 := by
  have hp : n.log2 + 1 ≤ 24 + roundPlace n j := by unfold roundPlace; omega
  rw [Nat.div_lt_iff_lt_mul (Nat.two_pow_pos _), ← Nat.pow_add]
  exact lt_of_lt_of_le Nat.lt_log2_self (Nat.pow_le_pow_right (by decide) hp)

/-- Where the grid is coarser than 2^-149, all 24 bits are in use. -/
theorem le_div_two_pow_roundPlace {n j : Nat} (h : j < roundPlace n j) : 2 ^ 23 ≤ n / 2 ^ roundPlace n j := by
  have hp : 23 + roundPlace n j = n.log2 := by unfold roundPlace at *; omega
  have hn : n ≠ 0 := by rintro rfl; simp [roundPlace] at h
  rw [Nat.le_div_iff_mul_le (Nat.two_pow_pos _), ← Nat.pow_add, hp]
  exact Nat.log2_self_le hn

/-- A binary32 value is a multiple of the grid step, or so small that it lies below the grid neighbours of `n`. -/
theorem representable_on_grid (n j : Nat) {u : ℤ} (hu : Representable u) :
    2 ^ roundPlace n j ∣ u * 2 ^ j ∨ u * 2 ^ j ≤ (n / 2 ^ roundPlace n j : ℕ) * 2 ^ roundPlace n j := by
  obtain ⟨m, k, hm, hk⟩ := hu
  obtain hp | hp := le_or_gt (roundPlace n j) (k + j)
  · left
    rw [← Int.natAbs_dvd_natAbs, Int.natAbs_mul, hk, Int.natAbs_pow, Int.natAbs_pow, mul_assoc]
    simpa [← pow_add] using Dvd.dvd.mul_left (pow_dvd_pow 2 hp) m
  · right
    have hq := le_div_two_pow_roundPlace (n := n) (j := j) (by omega)
    have hum : u ≤ (m * 2 ^ k : ℕ) := hk ▸ Int.le_natAbs
    calc u * 2 ^ j ≤ (m * 2 ^ k : ℕ) * 2 ^ j := by gcongr
      _ = (m * 2 ^ (k + j) : ℕ) := by push_cast; ring
      _ ≤ (2 ^ 24 * 2 ^ (k + j) : ℕ) := by gcongr
      _ = (2 ^ 23 * 2 ^ (k + j + 1) : ℕ) := by push_cast; ring
      _ ≤ (n / 2 ^ roundPlace n j * 2 ^ roundPlace n j : ℕ) := by gcongr <;> omega
      _ = _ := by push_cast; rfl

/-- No binary32 value lies strictly between the two grid neighbours of `n`. -/
theorem representable_not_between (n j : Nat) {u : ℤ} (hu : Representable u) :
    u * 2 ^ j ≤ (n / 2 ^ roundPlace n j : ℕ) * 2 ^ roundPlace n j ∨
      ((n / 2 ^ roundPlace n j : ℕ) + 1) * 2 ^ roundPlace n j ≤ u * 2 ^ j := by
  obtain hdvd | hle := representable_on_grid n j hu
  · obtain ⟨c, hc⟩ := hdvd
    rw [hc, mul_comm]
    obtain h | h := le_or_gt c (n / 2 ^ roundPlace n j : ℕ)
    · exact .inl (by gcongr)
    · exact .inr (by gcongr; omega)
  · exact .inl hle

theorem roundMagnitude_mul (n j : Nat) :
    (roundMagnitude n j : ℤ) * 2 ^ j = roundShift n (roundPlace n j) * 2 ^ roundPlace n j := by
  simp only [roundMagnitude, Nat.pow_eq]
  push_cast
  rw [mul_assoc, ← pow_add, Nat.sub_add_cancel (le_roundPlace n j)]

/-- Rounding up to 2^24 steps gives a power of two, a binary32 value too. -/
theorem representable_roundMagnitude (n j : Nat) : Representable (roundMagnitude n j) := by
  have hR : roundShift n (roundPlace n j) ≤ 2 ^ 24 := by
    have := div_two_pow_roundPlace_lt n j
    obtain ⟨h, -⟩ | ⟨h, -⟩ := roundShift_cases n (roundPlace n j) <;> omega
  obtain hlt | heq := hR.lt_or_eq
  · exact ⟨_, _, hlt, rfl⟩
  · refine ⟨1, 24 + (roundPlace n j - j), by decide, ?_⟩
    rw [Int.natAbs_natCast, roundMagnitude, heq, one_mul, Nat.pow_add, Nat.pow_eq]

/-! ### `fl32` -/

theorem isRounding_roundMagnitude (n j : Nat) : IsRounding n j (roundMagnitude n j) := by
  refine ⟨representable_roundMagnitude n j, fun u hu => ?_⟩
  obtain ⟨hle, htie⟩ := roundShift_nearest n _ (representable_not_between n j hu)
  rw [← roundMagnitude_mul] at hle htie
  have h2 : (2 ^ j : ℤ) ≠ 0 := by positivity
  refine ⟨hle, fun hne heq => ?_⟩
  have hdvd := htie (fun h => hne (mul_right_cancel₀ h2 h)) heq
  rwa [← sub_mul, ← mul_assoc, mul_dvd_mul_iff_right h2] at hdvd

theorem representable_neg {u : ℤ} (h : Representable u) : Representable (-u) := by
  simpa [Representable] using h

/-- Rounding to nearest, ties to even, is symmetric in the sign. -/
theorem isRounding_neg {n r : ℤ} {j : Nat} (h : IsRounding n j r) : IsRounding (-n) j (-r) := by
  refine ⟨representable_neg h.1, fun u hu => ?_⟩
  obtain ⟨hle, htie⟩ := h.2 (-u) (representable_neg hu)
  have hr : |-n - -r * 2 ^ j| = |n - r * 2 ^ j| := by rw [← abs_neg]; ring_nf
  have hu' : |-n - u * 2 ^ j| = |n - -u * 2 ^ j| := by rw [← abs_neg]; ring_nf
  rw [hr, hu']
  refine ⟨hle, fun hne heq => ?_⟩
  have hdvd := htie (fun h => hne (by omega)) heq
  rwa [← neg_dvd, dvd_neg, show -(2 * (u - -r)) = 2 * (-u - r) by ring]

/-- `fl32` is the rounded magnitude with the sign put back (R9). -/
theorem isRounding_fl32 (n : ℤ) (j : Nat) : IsRounding n j (fl32 n j).units := by
  have hmag := isRounding_roundMagnitude n.natAbs j
  obtain h | rfl | h := lt_trichotomy n 0
  · rw [Int.ofNat_natAbs_of_nonpos h.le] at hmag
    simpa [fl32, Int.sign_eq_neg_one_of_neg h] using isRounding_neg hmag
  · simpa [fl32, roundMagnitude, roundShift] using hmag
  · rw [Int.natAbs_of_nonneg h.le] at hmag
    simpa [fl32, Int.sign_eq_one_of_pos h] using hmag

/-- Settles O58: `fl32` is nearest, ties to even, and the three operations are `fl32` of the exact result. -/
theorem fl32IsNearestTiesToEven : Obligations.Fl32IsNearestTiesToEven := by
  refine ⟨isRounding_fl32, fun a b => ⟨?_, ?_, ?_⟩, fun k => ⟨?_, ?_⟩⟩
  · exact isRounding_fl32 _ 0
  · exact isRounding_fl32 _ 0
  · exact isRounding_fl32 _ 149
  · simp [F32.ofNat, F32.one]
  · simp [F32.sixteenths]

end Sys2Proof.Machine
end

section
/-! PROOFS. Architectural state (10_state.md): what every step keeps, the register block, and the latched command. -/

namespace Sys2Proof.Machine

open Sys2Proof.Claims

/-! ### The shape of a step -/

/-- A relation that does not look at the agenda holds between the two ends of every step once the engine's turn, the host
accesses and the three reset events establish it. -/
theorem step_rel {R : State → State → Prop} (hagenda : ∀ s rest t, R (s.moveOn rest) t → R s t)
    (hengine : ∀ s t, EngineOutcome s t → R s t) (hhost : ∀ a s, R s (hostAccess a s))
    (hassert : ∀ s, R s s.assertReset) (hrelease : ∀ s, R s s.releaseReset) (hpower : ∀ s, R s s.powerCycle)
    {s t : State} (h : step s = .next t) : R s t := by
  cases step_outcome h with
  | idle _ _ he => exact hengine s t he
  | engine rest _ _ he => exact hagenda s rest t (hengine _ t he)
  | poll _ _ _ _ he => exact hengine s t he
  | waited rest => exact hagenda s rest _ (hhost _ _)
  | host a rest => exact hagenda s rest _ (hhost a _)
  | assertReset rest => exact hagenda s rest _ (hassert _)
  | releaseReset rest => exact hagenda s rest _ (hrelease _)
  | powerCycle rest => exact hagenda s rest _ (hpower _)

/-- All that a write to a register can do to the state, besides the bus answer (R22 to R37). -/
inductive WriteOutcome (s : State) : State → Prop where
  | reset : WriteOutcome s s.resetBlock
  | interruptEnable (b : Bool) : WriteOutcome s { s with irqEn := b }
  | startIgnored (b : Bool) : WriteOutcome s { s with irqEn := b }.ignoreStart
  | startAccepted (b : Bool) : WriteOutcome s { s with irqEn := b }.acceptStart
  | status (v : Word) : WriteOutcome s (s.writeStatus v)
  | operands (c sb db sd dd oi : Word) : WriteOutcome s (withOperands s c sb db sd dd oi)

theorem State.writeCtrl_outcome (v : Word) (s : State) : WriteOutcome s (s.writeCtrl v) := by
  obtain ⟨-, h⟩ | ⟨-, -, h⟩ | ⟨-, -, -, h⟩ | ⟨-, -, -, h⟩ := State.writeCtrl_cases v s <;> rw [h]
  · exact .reset
  · exact .interruptEnable _
  · exact .startIgnored _
  · exact .startAccepted _

theorem State.setReg_outcome (r : Reg) (v : Word) (s : State) : WriteOutcome s (s.setReg r v) := by
  cases r with
  | ctrl => exact s.writeCtrl_outcome v
  | status => exact .status v
  | cmd => exact .operands v s.srcBase s.dstBase s.srcDim s.dstDim s.orientIndex
  | srcBase => exact .operands s.cmd v s.dstBase s.srcDim s.dstDim s.orientIndex
  | dstBase => exact .operands s.cmd s.srcBase v s.srcDim s.dstDim s.orientIndex
  | srcDim => exact .operands s.cmd s.srcBase s.dstBase v s.dstDim s.orientIndex
  | dstDim => exact .operands s.cmd s.srcBase s.dstBase s.srcDim v s.orientIndex
  | orientIndex => exact .operands s.cmd s.srcBase s.dstBase s.srcDim s.dstDim v
  | id | orientDim | orientData | cmdCount | reserved =>
    exact .operands s.cmd s.srcBase s.dstBase s.srcDim s.dstDim s.orientIndex

/-! ### The ORIENT buffer -/

theorem Orient.good_invalid (p : Params) : Orient.Good p Orient.invalid where
  shape h := nomatch h
  count := rfl
  bound := by simp [Orient.invalid]
  empty _ := rfl

/-- Each half of a Sobel sum is at most 4·255 (R33). -/
theorem sobelPair_inRange {S : Plane} (hS : ∀ r c, S r c ≤ 255) (r c : Nat) : (sobelPair S r c).inRange := by
  have h1 := hS (r - 1) (c - 1)
  have h2 := hS (r - 1) c
  have h3 := hS (r - 1) (c + 1)
  have h4 := hS r (c - 1)
  have h5 := hS r (c + 1)
  have h6 := hS (r + 1) (c - 1)
  have h7 := hS (r + 1) c
  have h8 := hS (r + 1) (c + 1)
  simp only [Grad.inRange, sobelPair]
  omega

theorem gradEntry_inRange {S : Plane} (hS : ∀ r c, S r c ≤ 255) (w h r c : Nat) : (gradEntry w h S r c).inRange := by
  unfold gradEntry
  split
  · exact sobelPair_inRange hS r c
  · decide

/-- A SOBEL that passes its checks leaves a good ORIENT buffer: its shape passed check 2, and a sample is at most 255. -/
theorem sobelOrient_good {p : Params} {l : Latch} {S : Plane} (hS : ∀ r c, S r c ≤ 255)
    (hc : checkOperands p .sobel l = none) (o : Orient) : Orient.Good p (sobelOrient l S o) where
  shape _ := checkOperands_dims hc
  count := by simp [sobelOrient, Latch.srcSize, Latch.width, Latch.height]
  bound := by
    simp only [sobelOrient, List.mem_map]
    rintro _ ⟨k, -, rfl⟩
    exact gradEntry_inRange hS ..
  empty h := nomatch h

theorem gradOf_good {p : Params} {i : Instr} {l : Latch} {S : Plane} {o : Orient} (hS : ∀ r c, S r c ≤ 255)
    (hc : checkOperands p i l = none) (ho : Orient.Good p o) : Orient.Good p (gradOf i l S o) := by
  by_cases h : i = .sobel
  · subst h
    exact sobelOrient_good hS hc o
  · rwa [gradOf_keep h]

/-! ### The latched command -/

theorem snapshotOrient_good {p : Params} {o : Orient} (h : Orient.Good p o) (cmd : Word) :
    Orient.Good p (snapshotOrient cmd o) := by
  unfold snapshotOrient
  split
  · exact h
  · exact Orient.good_invalid p

theorem State.latchCommand_good {s : State} (h : s.Inv) : Latch.Good s.params s.latchCommand where
  canonical := Memory.slice_wf h.canonical _ _
  region _ hc := Memory.mem_slice hc
  orient := snapshotOrient_good h.orient s.cmd

theorem markRaced_eq_some {race : Bool} {o : Option Latch} {l : Latch} (h : markRaced race o = some l) :
    ∃ l₀, o = some l₀ ∧ l = { l₀ with raced := l₀.raced || race } := by
  cases o with
  | none => exact nomatch h
  | some l₀ => exact ⟨l₀, rfl, (Option.some.inj h).symm⟩

/-- The mark of a HOST_RACE leaves the snapshot alone. -/
theorem markRaced_good {p : Params} {race : Bool} {o : Option Latch} (h : ∀ l, o = some l → Latch.Good p l) :
    ∀ l, markRaced race o = some l → Latch.Good p l := by
  intro l hl
  obtain ⟨l₀, ho, rfl⟩ := markRaced_eq_some hl
  exact { h l₀ ho with }

/-! ### The invariant -/

/-- The bytes of an abort lie in frame memory, since its region is cut there (log 12). -/
theorem State.abort_mem_good {s : State} (h : s.Inv) :
    Memory.wf s.abort.mem ∧ Memory.below s.abort.mem s.params.fmemBytes := by
  cases hl : s.latch with
  | none => rw [State.abort_idle s hl]; exact ⟨h.canonical, h.inside⟩
  | some l =>
    simp only [State.abort, hl]
    refine ⟨Memory.store_wf _ h.canonical _, Memory.store_below _ h.inside _ ?_⟩
    rw [← List.length_eq_zero_iff]
    simp only [abortBytes, abortSize, List.length_map, List.length_range]
    omega

/-- A reset leaves a good state, on either level of the hard reset line. -/
theorem State.resetBlock_inv {s : State} (h : s.Inv) (b : Bool) : { s.resetBlock with hardReset := b }.Inv where
  params := by simpa using h.params
  canonical := by simpa using (State.abort_mem_good h).1
  inside := by simpa using (State.abort_mem_good h).2
  busy := by simp [State.busy]
  error := by simp
  orient := by simpa using Orient.good_invalid s.params
  latch := by simp
  reset := by simp

theorem State.powerCycle_inv {s : State} (h : s.Inv) : s.powerCycle.Inv :=
  { State.resetBlock_inv h false with
    canonical := List.Pairwise.nil
    inside := by simp [State.powerCycle] }

theorem CmdError.code_ne_zero (e : CmdError) : e.code ≠ 0 := by cases e <;> decide

theorem State.failCommand_inv {s : State} (h : s.Inv) (e : CmdError) : (s.failCommand e).Inv :=
  { h with
    busy := by simp [State.busy]
    error := by simpa using e.code_ne_zero
    latch := by simp
    reset := by simp }

/-- A command that passes its checks writes inside frame memory (check 4). -/
theorem State.delivered_inv {s : State} (h : s.Inv) {i : Instr} {l : Latch}
    (hc : checkOperands s.params i l = none) : (s.delivered i l).Inv :=
  { h with
    canonical := Memory.storeBytes_wf h.canonical _ _
    inside := Memory.storeBytes_below h.inside _ _ (by
      rw [delivered_bytes_length]
      exact (checkOperands_range hc).2)
    busy := by simp [State.busy]
    orient := gradOf_good (l.sample_le s.draws) hc h.orient
    latch := by simp
    reset := by simp }

theorem EngineOutcome.inv {s t : State} (ho : EngineOutcome s t) (h : s.Inv) : t.Inv := by
  cases ho with
  | idle => exact h
  | fails l e => exact State.failCommand_inv h e
  | delivers l i _ _ hc => exact State.delivered_inv h hc

theorem State.acceptStart_inv {s : State} (h : s.Inv) (hr : s.hardReset = false) : s.acceptStart.Inv :=
  { h with
    busy := by simp
    error := by simp
    latch := by
      rintro l ⟨⟩
      exact State.latchCommand_good (s := s) h
    reset := by simp [hr] }

theorem State.writeStatus_inv {s : State} (h : s.Inv) (v : Word) : (s.writeStatus v).Inv :=
  { h with
    busy := fun hb => by
      obtain ⟨hdone, herr, hcode⟩ := h.busy hb
      simp [hdone, herr, hcode]
    error := by
      rw [State.writeStatus_err, State.writeStatus_errCode]
      cases v.getLsbD 2 with
      | false => simpa using h.error
      | true => simp }

/-- Every register write keeps the invariant while the hard reset is released, as it is for every access taken (R345). -/
theorem WriteOutcome.inv {s t : State} (ho : WriteOutcome s t) (h : s.Inv) (hr : s.hardReset = false) : t.Inv := by
  cases ho with
  | reset => exact State.resetBlock_inv h s.resetBlock.hardReset
  | interruptEnable b | startIgnored b => exact { h with }
  | startAccepted b => exact State.acceptStart_inv (s := { s with irqEn := b }) { h with } hr
  | status v => exact State.writeStatus_inv h v
  | operands => exact { h with }

theorem State.writeFrame_inv {s : State} (h : s.Inv) {off n : Nat} (hi : off + n ≤ s.params.fmemBytes) (v : Word) :
    (s.writeFrame off n v).Inv :=
  { h with
    canonical := Memory.storeBytes_wf h.canonical _ _
    inside := Memory.storeBytes_below h.inside _ _ (by rwa [State.writtenBytes_length])
    busy := fun hb => h.busy (by
      cases hl : s.latch <;> simp_all [State.busy])
    latch := markRaced_good h.latch
    reset := fun hr => by simp [h.reset hr] }

theorem hostAccess_inv (a : Access) {s : State} (h : s.Inv) : (hostAccess a s).Inv := by
  obtain ha | ⟨-, r, ha⟩ | ⟨hr, r, v, ha⟩ | ⟨-, off, n, -, ha⟩ | ⟨-, off, n, v, hi, ha⟩ := hostAccess_cases a s <;>
    rw [ha]
  · exact { h with }
  · exact { h with }
  · exact { (s.setReg_outcome r v).inv h hr with }
  · exact { h with }
  · exact State.writeFrame_inv h hi v

/-- Settles O44, one kind of event at a time: each is a named update of the state with a lemma that it keeps the invariant. -/
theorem everyStepKeepsTheInvariant : Obligations.EveryStepKeepsTheInvariant := by
  intro s t h hstep
  refine step_rel (R := fun s t => s.Inv → t.Inv) ?_ ?_ ?_ ?_ ?_ ?_ hstep h
  · exact fun s rest t hR h => hR { h with }
  · exact fun s t ho => ho.inv
  · exact fun a s => hostAccess_inv a
  · exact fun s h => State.resetBlock_inv h true
  · exact fun s h => { h with reset := by simp }
  · exact fun s => State.powerCycle_inv

/-! ### What every step does to the fault record and to CMD_COUNT -/

/-- `g` holds every fault that `f` holds. -/
def FaultRecord.le (f g : FaultRecord) : Prop :=
  (f.uninitRead = true → g.uninitRead = true) ∧ (f.hostRace = true → g.hostRace = true) ∧
    (f.badAccess = true → g.badAccess = true)

theorem FaultRecord.le_refl (f : FaultRecord) : f.le f := ⟨id, id, id⟩

theorem EngineOutcome.faults_le {s t : State} (ho : EngineOutcome s t) : s.faults.le t.faults := by
  cases ho with
  | idle | fails => exact FaultRecord.le_refl _
  | delivers => exact ⟨fun h => by simp [h], id, id⟩

theorem WriteOutcome.faults {s t : State} (ho : WriteOutcome s t) : t.faults = s.faults := by
  cases ho with
  | reset => exact s.resetBlock_faults
  | interruptEnable | startIgnored | startAccepted | status | operands => rfl

theorem hostAccess_faults_le (a : Access) (s : State) : s.faults.le (hostAccess a s).faults := by
  obtain ha | ⟨-, r, ha⟩ | ⟨-, r, v, ha⟩ | ⟨-, off, n, -, ha⟩ | ⟨-, off, n, v, -, ha⟩ := hostAccess_cases a s <;>
    rw [ha]
  · exact ⟨id, id, fun _ => rfl⟩
  · exact FaultRecord.le_refl _
  · rw [show (s.writeReg r v).faults = s.faults from (s.setReg_outcome r v).faults]
    exact FaultRecord.le_refl _
  · exact FaultRecord.le_refl _
  · exact ⟨id, fun h => by simp [h], id⟩

/-- Settles O46: the updates of the fault record only ever set a bit, and a reset leaves it alone. -/
theorem faultsAreNeverRemoved : Obligations.FaultsAreNeverRemoved := by
  intro s t hstep
  have hreset (s : State) : s.faults.le s.resetBlock.faults := s.resetBlock_faults ▸ FaultRecord.le_refl _
  refine step_rel (R := fun s t => s.faults.le t.faults) ?_ ?_ ?_ ?_ ?_ ?_ hstep
  · exact fun s rest t hR => hR
  · exact fun s t ho => ho.faults_le
  · exact hostAccess_faults_le
  · exact hreset
  · exact fun s => FaultRecord.le_refl _
  · exact hreset

/-- The three ways a step can treat CMD_COUNT and DONE: it leaves the count and does not raise DONE, it completes a command, or
it resets (R34, R24). -/
def CountStep (s t : State) : Prop :=
  (t.cmdCount = s.cmdCount ∧ (t.done = true → s.done = true)) ∨
    (t.cmdCount = s.cmdCount + 1 ∧ s.busy = true ∧ t.busy = false ∧ t.done = true) ∨
    (t.cmdCount = 0 ∧ t.busy = false ∧ t.done = false)

/-- A step that leaves CMD_COUNT and DONE alone. -/
theorem CountStep.of_same {s t : State} (hc : t.cmdCount = s.cmdCount) (hd : t.done = s.done) : CountStep s t :=
  .inl ⟨hc, fun h => hd ▸ h⟩

theorem EngineOutcome.countStep {s t : State} (ho : EngineOutcome s t) : CountStep s t := by
  cases ho with
  | idle => exact .of_same rfl rfl
  | fails l e hl | delivers l i hl => exact .inr (.inl ⟨rfl, by simp [State.busy, hl], rfl, rfl⟩)

theorem State.resetBlock_countStep (s : State) : CountStep s s.resetBlock :=
  .inr (.inr ⟨s.resetBlock_cmdCount, by simp [State.busy], s.resetBlock_done⟩)

theorem WriteOutcome.countStep {s t : State} (ho : WriteOutcome s t) : CountStep s t := by
  cases ho with
  | reset => exact s.resetBlock_countStep
  | interruptEnable | startIgnored | operands => exact .of_same rfl rfl
  | startAccepted => exact .inl ⟨rfl, fun h => nomatch h⟩
  | status v => exact .inl ⟨rfl, fun h => (Bool.and_eq_true_iff.1 h).1⟩

theorem hostAccess_countStep (a : Access) (s : State) : CountStep s (hostAccess a s) := by
  obtain ha | ⟨-, r, ha⟩ | ⟨-, r, v, ha⟩ | ⟨-, off, n, -, ha⟩ | ⟨-, off, n, v, -, ha⟩ := hostAccess_cases a s <;>
    rw [ha]
  · exact .of_same rfl rfl
  · exact .of_same rfl rfl
  · exact (s.setReg_outcome r v).countStep
  · exact .of_same rfl rfl
  · exact .of_same rfl rfl

/-- Settles O48: each kind of event falls under one of the three cases of `CountStep`. -/
theorem cmdCountCountsCompletions : Obligations.CmdCountCountsCompletions := by
  refine ⟨fun s => rfl, fun s t hstep => ?_⟩
  refine step_rel (R := CountStep) ?_ ?_ ?_ ?_ ?_ ?_ hstep
  · exact fun s rest t hR => hR
  · exact fun s t ho => ho.countStep
  · exact hostAccess_countStep
  · exact State.resetBlock_countStep
  · exact fun s => .of_same rfl rfl
  · exact State.resetBlock_countStep

/-! ### The step that takes a host access -/

@[simp] theorem State.moveOn_params (s : State) (rest : List Event) : (s.moveOn rest).params = s.params := rfl
@[simp] theorem State.moveOn_hardReset (s : State) (rest : List Event) :
    (s.moveOn rest).hardReset = s.hardReset := rfl
@[simp] theorem State.moveOn_regValue (s : State) (rest : List Event) (r : Reg) :
    (s.moveOn rest).regValue r = s.regValue r := rfl
@[simp] theorem State.moveOn_regDraws (s : State) (rest : List Event) (r : Reg) :
    (s.moveOn rest).regDraws r = s.regDraws r := rfl

section HostAccess

variable {s : State} {off : Nat} {w : Width} {r : Reg} {v : Word} {rest : List Event}

theorem step_of_hostNext {a : Access} (h : HostNext s a rest) :
    step s = .next (hostAccess a (s.moveOn rest)) := by
  simp [step, h.next, State.moveOn]

/-- A read in the register window is answered when it is wide and aligned, and refused otherwise (R38). -/
theorem step_registerRead (h : HostNext s (.read (s.params.regBase + off) w) rest) (ho : off < 0x100) :
    step s = .next (if regAccessOk off w then (s.moveOn rest).readReg (regAt off)
      else (s.moveOn rest).refuseAccess) := by
  rw [step_of_hostNext h]
  simp [hostAccess, h.live, locate_register s.params off ho]

/-- A write in the register window is taken when it is wide and aligned, and refused otherwise (R38). -/
theorem step_registerWrite (h : HostNext s (.write (s.params.regBase + off) w v) rest) (ho : off < 0x100) :
    step s = .next (if regAccessOk off w then (s.moveOn rest).writeReg (regAt off) v
      else (s.moveOn rest).refuseAccess) := by
  rw [step_of_hostNext h]
  simp [hostAccess, h.live, locate_register s.params off ho]

theorem step_readReg (h : HostNext s (readRegAccess s.params r) rest) :
    step s = .next ((s.moveOn rest).readReg r) := by
  rw [step_registerRead h r.offset_lt, if_pos r.offset_aligned, regAt_offset]

theorem step_writeReg (h : HostNext s (writeRegAccess s.params r v) rest) :
    step s = .next ((s.moveOn rest).writeReg r v) := by
  rw [step_registerWrite h r.offset_lt, if_pos r.offset_aligned, regAt_offset]

end HostAccess

/-- Settles O30: an access that is not wide and aligned takes the refusing branch, for a read and a write alike. -/
theorem badRegisterAccessIsRefused : Obligations.BadRegisterAccessIsRefused := by
  intro s off w a rest h ha ho hbad
  have hok : ¬ regAccessOk off w = true := by
    simp only [regAccessOk, Bool.and_eq_true, decide_eq_true_eq]
    tauto
  obtain rfl | ⟨v, rfl⟩ := ha
  · rw [step_registerRead h ho, if_neg hok]
    rfl
  · rw [step_registerWrite h ho, if_neg hok]
    rfl

/-! ### Register reads -/

/-- Every read but that of ORIENT_DATA while a SOBEL runs takes no free value. -/
theorem State.regDraws_eq_zero {s : State} {r : Reg} (h : ¬ (r = .orientData ∧ s.sobelRunning = true)) :
    s.regDraws r = 0 := if_neg h

/-- Settles O26: the step is `readReg`, and only an ORIENT_DATA read while a SOBEL runs counts a free value. -/
theorem registerReadHasNoSideEffect : Obligations.RegisterReadHasNoSideEffect := by
  intro s r rest h
  refine ⟨s.draws + s.regDraws r, fun hr => ?_, step_readReg h⟩
  rw [State.regDraws_eq_zero hr, Nat.add_zero]

/-- A flag put at place `k` of a word. -/
theorem bitWord_shiftLeft_getLsbD (b : Bool) {k : Nat} (hk : k < 32) (i : Nat) :
    (bitWord b <<< k).getLsbD i = (decide (i = k) && b) := by
  cases b with
  | false => simp [bitWord]
  | true =>
    rw [show bitWord true = 1 from rfl, BitVec.ofNat_eq_ofNat, ← BitVec.twoPow_eq, BitVec.getLsbD_twoPow]
    simp [hk, eq_comm]

/-- A field of four bits put at place 8 of a word. -/
theorem setWidth_shiftLeft_getLsbD (c : BitVec 4) (i : Nat) :
    (c.setWidth 32 <<< 8).getLsbD i = (decide (8 ≤ i) && c.getLsbD (i - 8)) := by
  rw [BitVec.getLsbD_shiftLeft, BitVec.getLsbD_setWidth]
  cases hc : c.getLsbD (i - 8) with
  | false => simp
  | true =>
    have : i - 8 < 4 := BitVec.lt_of_getLsbD hc
    have hplace : (!decide (i < 8)) = decide (8 ≤ i) := by simp [← decide_not]
    simp [hplace, show i < 32 by omega, show i - 8 < 32 by omega]

/-- STATUS bit by bit: a flag at each of the places 0 to 4, ERR_CODE from place 8 on. -/
theorem State.statusWord_getLsbD (s : State) (i : Nat) :
    s.statusWord.getLsbD i = (decide (i = 0) && s.busy || decide (i = 1) && s.done || decide (i = 2) && s.err ||
      decide (i = 3) && s.orient.valid || decide (i = 4) && s.startIgnored ||
      decide (8 ≤ i) && s.errCode.getLsbD (i - 8)) := by
  have h0 := bitWord_shiftLeft_getLsbD s.busy (k := 0) (by decide) i
  rw [BitVec.shiftLeft_zero] at h0
  simp only [State.statusWord, BitVec.getLsbD_or, h0, setWidth_shiftLeft_getLsbD,
    bitWord_shiftLeft_getLsbD _ (show 1 < 32 by decide),
    bitWord_shiftLeft_getLsbD _ (show 2 < 32 by decide), bitWord_shiftLeft_getLsbD _ (show 3 < 32 by decide),
    bitWord_shiftLeft_getLsbD _ (show 4 < 32 by decide)]

/-- From place 5 on STATUS holds ERR_CODE alone. -/
theorem State.statusWord_getLsbD_of_ge (s : State) {i : Nat} (h : 5 ≤ i) :
    s.statusWord.getLsbD i = (decide (8 ≤ i) && s.errCode.getLsbD (i - 8)) := by
  rw [State.statusWord_getLsbD]
  simp [show i ≠ 0 by omega, show i ≠ 1 by omega, show i ≠ 2 by omega, show i ≠ 3 by omega, show i ≠ 4 by omega]

/-- Settles O25: the flags bit by bit, and the three fields above them as cuts of the part that holds ERR_CODE alone. -/
theorem statusWordLayout : Obligations.StatusWordLayout := by
  intro s
  have hcut {a n i : Nat} (hi : i < n) (ha : 5 ≤ a) : ((s.regValue .status).extractLsb' a n).getLsbD i =
      (decide (8 ≤ a + i) && s.errCode.getLsbD (a + i - 8)) := by
    rw [BitVec.getLsbD_extractLsb', decide_eq_true hi, Bool.true_and]
    exact s.statusWord_getLsbD_of_ge (by omega)
  refine ⟨?_, ?_, ?_, ?_, ?_, ?_, ?_, ?_⟩
  · exact (s.statusWord_getLsbD 0).trans (by simp [State.busy])
  · exact (s.statusWord_getLsbD 1).trans (by simp)
  · exact (s.statusWord_getLsbD 2).trans (by simp)
  · exact (s.statusWord_getLsbD 3).trans (by simp)
  · exact (s.statusWord_getLsbD 4).trans (by simp)
  · refine BitVec.eq_of_getLsbD_eq fun i hi => ?_
    rw [hcut hi (by decide), decide_eq_false (by omega), Bool.false_and]
    exact BitVec.getLsbD_zero.symm
  · refine BitVec.eq_of_getLsbD_eq fun i hi => ?_
    rw [hcut hi (by decide), decide_eq_true (by omega), Bool.true_and, Nat.add_sub_cancel_left]
  · refine BitVec.eq_of_getLsbD_eq fun i hi => ?_
    rw [hcut hi (by decide), BitVec.getLsbD_of_ge _ _ (by omega), Bool.and_false]
    exact BitVec.getLsbD_zero.symm

/-- A component of a gradient pair fits 16 bits (R33). -/
theorem toInt_ofInt_of_inRange {n : Int} (hl : -1020 ≤ n) (hu : n ≤ 1020) : (BitVec.ofInt 16 n).toInt = n := by
  rw [BitVec.toInt_ofInt]
  exact Int.bmod_eq_of_le (by omega) (by omega)

theorem Orient.dataWord_of_lt {o : Orient} {index : Word} {g : Grad} (hv : o.valid = true)
    (hi : index.toNat < o.width.toNat * o.height.toNat) (hg : o.pairs[index.toNat]? = some g) :
    o.dataWord index = g.word := by
  rw [Orient.dataWord, if_pos ⟨hv, hi⟩, List.getD_eq_getElem?_getD, hg, Option.getD_some]

theorem Orient.dataWord_eq_zero {o : Orient} {index : Word}
    (h : o.valid = false ∨ o.width.toNat * o.height.toNat ≤ index.toNat) : o.dataWord index = 0 := by
  refine if_neg fun ⟨hv, hi⟩ => ?_
  obtain h | h := h
  · simp [hv] at h
  · omega

/-- Settles O29: each register is two fields put together, and is cut at bit 16 again. -/
theorem orientRegistersReadTheBuffer : Obligations.OrientRegistersReadTheBuffer := by
  intro s
  refine ⟨fun hv => ?_, fun hv => ?_, fun hs => ?_⟩
  · have hdim : s.regValue .orientDim = s.orient.height ++ s.orient.width := if_pos hv
    rw [hdim]
    exact ⟨extract_append_low _ _, extract_append_high _ _⟩
  · exact if_neg (by simp [hv])
  · have hdata : s.regValue .orientData = s.orient.dataWord s.orientIndex := if_neg (by simp [hs])
    rw [hdata]
    refine ⟨fun g hv hi hg hr => ?_, Orient.dataWord_eq_zero⟩
    obtain ⟨hxl, hxu, hyl, hyu⟩ := hr
    rw [Orient.dataWord_of_lt hv hi hg, Grad.word, extract_append_low, extract_append_high]
    exact ⟨toInt_ofInt_of_inRange hxl hxu, toInt_ofInt_of_inRange hyl hyu⟩

/-! ### Register writes -/

theorem State.writeCtrl_reset (s : State) {v : Word} (h : v.getLsbD 1 = true) : s.writeCtrl v = s.resetBlock :=
  if_pos h

theorem State.writeCtrl_interruptEnable (s : State) {v : Word} (h1 : v.getLsbD 1 = false) (h0 : v.getLsbD 0 = false) :
    s.writeCtrl v = { s with irqEn := v.getLsbD 2 } := by
  rw [State.writeCtrl, h1, h0]
  rfl

/-- CTRL reads IRQ_EN at bit 2 and 0 elsewhere (R23). -/
theorem State.ctrlWord_eq (s : State) : s.ctrlWord = if s.irqEn then 4 else 0 := by
  unfold State.ctrlWord
  cases s.irqEn <;> decide

/-- Settles O23: one branch of `writeCtrl` for each case of bits 1 and 0, and the CTRL word as it reads in any state. -/
theorem ctrlWriteActsInOrder : Obligations.CtrlWriteActsInOrder := by
  intro s v rest h
  have hstep : step s = .next { (s.moveOn rest).writeCtrl v with reply := .done } := step_writeReg h
  refine ⟨fun h1 => ⟨?_, State.resetBlock_irqEn _, State.resetBlock_latch _⟩, fun h1 h0 => ?_,
    _, hstep, State.ctrlWord_eq _⟩
  · rw [hstep, State.writeCtrl_reset _ h1]
    rfl
  · rw [hstep, State.writeCtrl_interruptEnable _ h1 h0]
    rfl

/-- Settles O24: `writeStatus` keeps a flag and clears it by the same bit that the statement tests. -/
theorem statusWriteClearsWhereOne : Obligations.StatusWriteClearsWhereOne := by
  intro s v rest h
  have hclear (flag one : Bool) : (flag && !one) = if one then false else flag := by cases one <;> simp
  rw [step_writeReg h]
  simp only [State.writeReg, State.setReg, State.writeStatus, hclear]
  rfl

/-- Writing an operand register changes it and none of the others. -/
theorem storedIn_writeReg {s : State} {r : Reg} (h : storedIn s r ≠ none) (v : Word) (r' : Reg) :
    storedIn (s.writeReg r v) r' = if r' = r then some v else storedIn s r' := by
  cases r with
  | cmd | srcBase | dstBase | srcDim | dstDim | orientIndex => cases r' <;> rfl
  | id | ctrl | status | orientDim | orientData | cmdCount | reserved => exact absurd rfl h

/-- An operand register reads the value it stores. -/
theorem regValue_of_storedIn {s : State} {r : Reg} {v : Word} (h : storedIn s r = some v) : s.regValue r = v := by
  cases r with
  | cmd | srcBase | dstBase | srcDim | dstDim | orientIndex => exact Option.some.inj h
  | id | ctrl | status | orientDim | orientData | cmdCount | reserved => exact nomatch h

/-- Settles O27: what is stored after the write says both what the register reads and that no other one changed. -/
theorem operandRegistersHoldTheWrittenValue : Obligations.OperandRegistersHoldTheWrittenValue := by
  intro s r v rest h hr
  have hstored := storedIn_writeReg (s := s.moveOn rest) hr v
  have hsame : storedIn ((s.moveOn rest).writeReg r v) r = some v := by rw [hstored, if_pos rfl]
  refine ⟨_, step_writeReg h, hsame, regValue_of_storedIn hsame, fun r' hne => ?_, ?_⟩
  · rw [hstored, if_neg hne]
    rfl
  · cases r with
    | cmd | srcBase | dstBase | srcDim | dstDim | orientIndex => rfl
    | id | ctrl | status | orientDim | orientData | cmdCount | reserved => exact absurd rfl hr

/-- The slots from 0x30 on are reserved (R37). -/
theorem regAt_reserved {off : Nat} (h : 0x30 ≤ off) : regAt off = .reserved := by
  unfold regAt
  split <;> try omega
  rfl

theorem State.setReg_readOnly (s : State) (v : Word) {off : Nat} (ha : off % 4 = 0)
    (h : off = 0x00 ∨ off = 0x20 ∨ off = 0x28 ∨ 0x2C ≤ off) : s.setReg (regAt off) v = s := by
  obtain rfl | rfl | rfl | h := h
  · rfl
  · rfl
  · rfl
  · obtain rfl | h : off = 0x2C ∨ 0x30 ≤ off := by omega
    · rfl
    · rw [regAt_reserved h]
      rfl

/-- Settles O28: the writable registers lie elsewhere in the window, and no such read takes a free value. -/
theorem readOnlyRegistersIgnoreWrites : Obligations.ReadOnlyRegistersIgnoreWrites := by
  refine ⟨fun s off v rest h ha ho hoff => ?_, fun s off rest h ha ho => ⟨fun hoff => ?_, fun hoff => ?_⟩⟩
  · rw [step_registerWrite h ho, if_pos (by simp [regAccessOk, ha]), State.writeReg,
      State.setReg_readOnly _ v ha hoff]
    rfl
  · subst hoff
    rw [step_registerRead h ho]
    rfl
  · rw [step_registerRead h ho, if_pos (by simp [regAccessOk, ha]), regAt_reserved hoff]
    rfl

/-! ### The running command -/

/-- A command word crosses the 32 bits of a table word unchanged. -/
theorem tableWord_toNat (w : Word) : tableWord 32 w.toNat = w := by
  rw [tableWord, Nat.mod_eq_of_lt w.isLt, BitVec.ofNat_toNat, BitVec.setWidth_eq]

theorem decodeWord_encode (i : Instr) : decodeWord (encode i) = .ok i := by cases i <;> rfl

theorem step_of_engineNext {s s' : State} (h : EngineNext s s') : step s = engineTurn s' := by
  obtain ⟨ha, rfl⟩ | ⟨rest, ha, rfl⟩ := h <;> simp [step, ha]

theorem latch_of_engineNext {s s' : State} (h : EngineNext s s') : s'.latch = s.latch := by
  obtain ⟨-, rfl⟩ | ⟨rest, -, rfl⟩ := h <;> rfl

/-- Settles O4: the step is the engine's turn, and the word that `withFetchWord` latches decodes to `i`. -/
theorem stepRunsTheLatchedCommand : Obligations.StepRunsTheLatchedCommand := by
  refine ⟨fun s s' l i h hl hd => ?_, fun s i => ?_⟩
  · rw [step_of_engineNext h]
    exact engineTurn_run s' l i ((latch_of_engineNext h).trans hl) hd
  · have hd : decodeWord (tableWord 32 (encode i).toNat) = .ok i := by
      rw [tableWord_toNat, decodeWord_encode]
    rw [step_of_engineNext (.inl ⟨rfl, rfl⟩)]
    exact engineTurn_run _ _ i (State.acceptStart_latch _) hd

theorem State.exists_latch_of_busy {s : State} (h : s.busy = true) : ∃ l, s.latch = some l :=
  Option.isSome_iff_exists.1 h

theorem State.delivered_withOperands (s : State) (c sb db sd dd oi : Word) (i : Instr) (l : Latch) :
    (withOperands s c sb db sd dd oi).delivered i l = withOperands (s.delivered i l) c sb db sd dd oi := by
  simp only [State.delivered, State.deliver, State.retire, withOperands]

/-- Settles O19: the checks, the rules and the destination read the latch, so the rewritten registers pass through. -/
theorem commandReadsOnlyLatchedOperands : Obligations.CommandReadsOnlyLatchedOperands := by
  intro i s c sb db sd dd oi hb
  obtain ⟨l, hl⟩ := State.exists_latch_of_busy hb
  obtain ⟨e, hc, he⟩ | ⟨hc, he⟩ := exec_cases i s l hl
  · exact ⟨_, he, exec_fail i (withOperands s c sb db sd dd oi) l e hl hc⟩
  · refine ⟨_, he, ?_⟩
    rw [exec_pass i (withOperands s c sb db sd dd oi) l hl hc, State.delivered_withOperands]

/-! ### The interrupt line -/

/-- A completion step sets DONE and keeps IRQ_EN, so the line is IRQ_EN after it (R41, R305). -/
theorem exec_irq (i : Instr) {s : State} (hb : s.busy = true) :
    ∃ t, exec i s = .next t ∧ t.irq = s.irqEn ∧ t.irqEn = s.irqEn := by
  obtain ⟨l, hl⟩ := State.exists_latch_of_busy hb
  obtain ⟨e, -, he⟩ | ⟨-, he⟩ := exec_cases i s l hl <;> exact ⟨_, he, Bool.and_true _, rfl⟩

/-- The line is low while DONE is clear. -/
theorem State.irq_of_not_done {s : State} (h : s.done = false) : s.irq = false := by
  rw [State.irq, h, Bool.and_false]

/-- Settles O35: a completion sets DONE, and each of the other operations clears it or leaves it and IRQ_EN alone. -/
theorem interruptFollowsCompletion : Obligations.InterruptFollowsCompletion := by
  refine ⟨fun i s => exec_irq i, fun s => ⟨?_, ?_, ?_⟩, fun s hb => ?_, fun s v h1 => ?_⟩
  · exact State.irq_of_not_done s.acceptStart_done
  · exact State.irq_of_not_done s.resetBlock_done
  · exact State.irq_of_not_done s.resetBlock_done
  · rw [State.startAction, if_pos hb]
    rfl
  · exact State.irq_of_not_done (by rw [State.writeStatus_done, h1, Bool.not_true, Bool.and_false])

end Sys2Proof.Machine
end

section
/-! PROOFS. Frame memory (20_memory.md): unwritten sources and races at a completion, and the host's accesses. -/

namespace Sys2Proof.Machine

open Sys2Proof.Claims

/-! ### The regions and the checks as the statements write them -/

theorem destSize_eq_destCount (i : Instr) (l : Latch) : destSize i l = destCount i l := by
  cases i with
  | htone => exact Nat.mul_mul_mul_comm 2 l.width 2 l.height
  | gblur | sobel | nms | thresh | hyst | fsdith | boxds => rfl

theorem Latch.dstSize_eq_destSpan (l : Latch) : l.dstSize = destSpan l := by
  unfold Latch.dstSize destSpan Latch.command?
  cases commandOf? l.cmd with
  | none => rfl
  | some i => exact destSize_eq_destCount i l

theorem Latch.inSource_iff_InSource (l : Latch) (a : Nat) : l.inSource a = true ↔ InSource l a :=
  l.inSource_iff a

theorem Latch.inDest_iff_InDest (l : Latch) (a : Nat) : l.inDest a = true ↔ InDest l a := by
  rw [l.inDest_iff, l.dstSize_eq_destSpan]
  rfl

/-- A command none of whose checks fails passes the model's five (R102). -/
theorem checkOperands_of_passes {p : Params} {i : Instr} {l : Latch} (h : Passes p i l) :
    checkOperands p i l = none := by
  simp only [checkOperands_eq_none, Bool.eq_false_iff]
  refine ⟨fun hb => h .badDim ((badDim_iff p l).1 hb), fun hb => h .badRatio ?_, fun hb => h .range ⟨i, rfl, ?_⟩,
    fun hb => h .overlap ⟨i, rfl, ?_⟩, fun hb => h .noOrient ?_⟩
  · obtain ⟨hi, hdims⟩ := (badRatio_iff i l).1 hb
    exact ⟨congrArg some hi, hdims⟩
  · rw [← destSize_eq_destCount]
    exact (outOfRange_iff p i l).1 hb
  · rw [← destSize_eq_destCount]
    exact (overlapping_iff i l).1 hb
  · obtain ⟨hi, horient⟩ := (missingOrient_iff i l).1 hb
    exact ⟨congrArg some hi, horient⟩

/-- A source plane that holds samples has no unwritten byte: byte k is the sample of row k / W and column k % W (R104). -/
theorem readsUnwritten_of_holdsSource {l : Latch} {S : Nat → Nat → Nat} (h : HoldsSource l S) :
    l.readsUnwritten = false := by
  rw [Latch.readsUnwritten_eq_false]
  intro k (hk : k < l.w.toNat * l.h.toNat)
  have hw : 0 < l.w.toNat := Nat.pos_of_mul_pos_right (Nat.zero_lt_of_lt hk)
  obtain ⟨b, hb, -⟩ := h (k / l.w.toNat) (k % l.w.toNat) (Nat.div_lt_of_lt_mul hk) (Nat.mod_lt k hw)
  rw [Nat.div_add_mod'] at hb
  exact Option.isSome_of_eq_some hb

/-! ### A completion that delivers, whatever its source and its races -/

theorem exec_of_passes {i : Instr} {s : State} {l : Latch} (hl : s.latch = some l) (h : Passes s.params i l) :
    exec i s = .next (s.delivered i l) :=
  exec_pass i s l hl (checkOperands_of_passes h)

theorem State.delivered_sameOutside (i : Instr) (l : Latch) (s : State) :
    SameOutside s.mem (s.delivered i l).mem l.dst.toNat (destCount i l) := by
  intro a ha
  rw [← destSize_eq_destCount] at ha
  exact State.delivered_read_outside i l s a ha

/-- Every destination byte holds some value, the family's or a free one (R67, R71). -/
theorem State.delivered_read_some (i : Instr) (l : Latch) (s : State) {n : Nat} (hn : n < destCount i l) :
    ∃ b, Memory.read (s.delivered i l).mem (l.dst.toNat + n) = some b := by
  rw [← destSize_eq_destCount, ← delivered_bytes_length i l s] at hn
  exact ⟨_, Memory.read_storeBytes_inside _ _ n _ hn⟩

theorem State.delivered_orient_keep {i : Instr} (hi : i ≠ .sobel) (l : Latch) (s : State) :
    (s.delivered i l).orient = s.orient :=
  gradOf_keep hi l _ _

/-- Settles O17: the completion delivers, and byte k of the source is the unwritten one that it records. -/
theorem unwrittenSourceRecordsUninitRead : Obligations.UnwrittenSourceRecordsUninitRead := by
  intro i s l k hl hp hk hnone
  have hu : l.readsUnwritten = true := l.readsUnwritten_eq_true.2 ⟨k, hk, hnone⟩
  refine ⟨_, exec_of_passes hl hp, ?_, rfl, fun hi => State.delivered_orient_keep hi l s, ?_,
    State.delivered_sameOutside i l s, fun n => State.delivered_read_some i l s⟩
  · rw [State.delivered_faults, hu, Bool.or_true]
  · rintro rfl
    exact ⟨rfl, rfl, rfl⟩

/-- Settles O18: the completion delivers, and a written source leaves the fault record as it was. -/
theorem racedCommandStillCompletes : Obligations.RacedCommandStillCompletes := by
  intro i s l S hl _ hp hS
  have hfaults : (s.delivered i l).faults = s.faults := by
    rw [State.delivered_faults, readsUnwritten_of_holdsSource hS, Bool.or_false]
  refine ⟨_, exec_of_passes hl hp, ?_, fun hi => State.delivered_orient_keep hi l s,
    State.delivered_sameOutside i l s, fun n => State.delivered_read_some i l s⟩
  rw [← hfaults]
  rfl

/-! ### What the running command does to a host access -/

theorem State.regionBusy_iff (s : State) (a : Nat) :
    s.regionBusy a = true ↔ ∃ l, s.latch = some l ∧ (InSource l a ∨ InDest l a) := by
  unfold State.regionBusy
  cases s.latch with
  | none => simp
  | some l => simp [Latch.inSource_iff_InSource, Latch.inDest_iff_InDest]

/-- With no command running, or outside its regions, no byte is in a region. -/
theorem State.regionBusy_eq_false {s : State} {a : Nat}
    (h : ∀ l, s.latch = some l → ¬ InSource l a ∧ ¬ InDest l a) : s.regionBusy a = false := by
  rw [Bool.eq_false_iff, ne_eq, s.regionBusy_iff]
  rintro ⟨l, hl, hin⟩
  obtain ⟨hs, hd⟩ := h l hl
  exact hin.elim hs hd

theorem State.destBusy_eq_false {s : State} {a : Nat} (h : ∀ l, s.latch = some l → ¬ InDest l a) :
    s.destBusy a = false := by
  unfold State.destBusy
  cases hl : s.latch with
  | none => rfl
  | some l => exact Bool.eq_false_iff.2 fun hd => h l hl ((l.inDest_iff_InDest a).1 hd)

theorem State.racesAt_iff (s : State) (off n : Nat) :
    s.racesAt off n = true ↔ ∃ k, k < n ∧ s.regionBusy (off + k) = true := by
  simp [State.racesAt]

/-- A written byte that is no destination byte of a running command reads as it was written last (R61, R71). -/
theorem State.hostByte_of_read {s : State} {a : Nat} {b : Byte} (hd : s.destBusy a = false)
    (hr : Memory.read s.mem a = some b) (k : Nat) : s.hostByte a k = b := by
  simp [State.hostByte, hd, hr]

/-! ### Frame memory after a host write -/

theorem State.writeFrame_sameOutside (s : State) (off n : Nat) (v : Word) :
    SameOutside s.mem (s.writeFrame off n v).mem off n := by
  intro a ha
  exact Memory.read_storeBytes_outside _ _ _ _ (by rwa [State.writtenBytes_length])

/-- Byte k of a host write: the written one, or a free one inside a region of the running command (R62, R71). -/
theorem State.writeFrame_read_inside (s : State) (off : Nat) {n k : Nat} (v : Word) (hk : k < n) :
    Memory.read (s.writeFrame off n v).mem (off + k) =
      some (if s.regionBusy (off + k) then Config.freeByte (s.draws + k) else v.extractLsb' (8 * k) 8) := by
  rw [State.writeFrame_mem, Memory.read_storeBytes_inside _ _ k _ (by rwa [State.writtenBytes_length])]
  simp [State.writtenBytes]

/-- The mark of a HOST_RACE moves no region. -/
theorem State.writeFrame_destBusy (s : State) (off n : Nat) (v : Word) (a : Nat) :
    (s.writeFrame off n v).destBusy a = s.destBusy a := by
  rw [State.destBusy, State.destBusy, State.writeFrame_latch]
  cases s.latch <;> rfl

/-- A host write that races with nothing changes its own bytes and the bus answer only. -/
theorem State.writeFrame_of_no_race {s : State} {off n : Nat} (v : Word) (h : s.racesAt off n = false) :
    s.writeFrame off n v = { s with mem := (s.writeFrame off n v).mem, reply := .done } := by
  simp [State.writeFrame, h, markRaced_false]

/-- A host write that races records HOST_RACE and marks the command (R71). -/
theorem State.writeFrame_of_race {s : State} {off n : Nat} {l : Latch} (v : Word) (h : s.racesAt off n = true)
    (hl : s.latch = some l) :
    s.writeFrame off n v =
      { s with
        mem := (s.writeFrame off n v).mem
        latch := some { l with raced := true }
        faults := { s.faults with hostRace := true }
        reply := .done
        draws := (s.writeFrame off n v).draws } := by
  simp [State.writeFrame, h, hl, markRaced]

/-! ### The step that takes a frame memory access -/

section FrameAccess

variable {s : State} {off : Nat} {w : Width} {v : Word} {rest : List Event}

theorem frameAccessOk_eq_false {p : Params} (h : off % w.bytes ≠ 0 ∨ p.fmemBytes < off + w.bytes) :
    frameAccessOk p off w = false := by
  simp only [frameAccessOk, Bool.and_eq_false_iff, decide_eq_false_iff_not]
  omega

theorem step_frameRead (h : HostNext s (.read (s.params.fmemBase + off) w) rest) (hp : s.params.Valid)
    (ha : off % w.bytes = 0) (hi : off + w.bytes ≤ s.params.fmemBytes) :
    step s = .next ((s.moveOn rest).readFrame off w.bytes) := by
  rw [step_of_hostNext h]
  exact congrArg _ (hostAccess_readFrame (s.moveOn rest) off w hp h.live ha hi)

theorem step_frameWrite (h : HostNext s (.write (s.params.fmemBase + off) w v) rest) (hp : s.params.Valid)
    (ha : off % w.bytes = 0) (hi : off + w.bytes ≤ s.params.fmemBytes) :
    step s = .next ((s.moveOn rest).writeFrame off w.bytes v) := by
  rw [step_of_hostNext h]
  exact congrArg _ (hostAccess_writeFrame (s.moveOn rest) off w v hp h.live ha hi)

theorem Width.bytes_le_four (w : Width) : w.bytes ≤ 4 := by cases w <;> decide

/-- The word a host read answers lies below its width, and its byte k is what the host finds at offset + k (R62, R64). -/
theorem State.readFrame_word (s : State) (off : Nat) (w : Width) :
    ∃ v : Word, (s.readFrame off w.bytes).reply = .data v ∧ v.toNat < 2 ^ (8 * w.bytes) ∧
      ∀ k, k < w.bytes → v.extractLsb' (8 * k) 8 = s.hostByte (off + k) k := by
  have hlen : ((List.range w.bytes).map fun k => s.hostByte (off + k) k).length = w.bytes := by simp
  have hle := hlen.trans_le w.bytes_le_four
  refine ⟨_, State.readFrame_reply s off w.bytes, ?_, fun k hk => ?_⟩
  · exact (wordFromBytes_toNat_lt _ hle).trans_eq (by rw [hlen])
  · rw [extract_wordFromBytes _ hle k (by rwa [hlen]), List.getElem_map, List.getElem_range]

/-- A host read of bytes that hold those of `v`, none of them a busy destination byte, answers `v` (R62). -/
theorem State.readFrame_reply_of_written (hd : ∀ k, k < w.bytes → s.destBusy (off + k) = false)
    (hr : ∀ k, k < w.bytes → Memory.read s.mem (off + k) = some (v.extractLsb' (8 * k) 8)) :
    (s.readFrame off w.bytes).reply = .data (BitVec.ofNat 32 (v.toNat % 2 ^ (8 * w.bytes))) := by
  have hbytes : (List.range w.bytes).map (fun k => s.hostByte (off + k) k) = wordBytes v w.bytes := by
    refine List.map_congr_left fun k hk => ?_
    have hk := List.mem_range.1 hk
    exact State.hostByte_of_read (hd k hk) (hr k hk) k
  rw [State.readFrame_reply, hbytes, wordFromBytes_wordBytes]

/-- The step that reads back what was written and is no busy destination byte (R61, R62). -/
theorem step_frameRead_of_written (h : HostNext s (.read (s.params.fmemBase + off) w) rest) (hp : s.params.Valid)
    (ha : off % w.bytes = 0) (hi : off + w.bytes ≤ s.params.fmemBytes)
    (hd : ∀ k, k < w.bytes → s.destBusy (off + k) = false)
    (hr : ∀ k, k < w.bytes → Memory.read s.mem (off + k) = some (v.extractLsb' (8 * k) 8)) :
    step s = .next
      { s with
        agenda := rest
        draws := s.draws + w.bytes
        reply := .data (BitVec.ofNat 32 (v.toNat % 2 ^ (8 * w.bytes))) } := by
  rw [step_frameRead h hp ha hi, ← State.readFrame_reply_of_written (s := s.moveOn rest) hd hr]
  rfl

end FrameAccess

/-- Settles O31: the address lands in frame memory, where a read and a write that are not aligned or not inside are refused. -/
theorem badFrameAccessIsRefused : Obligations.BadFrameAccessIsRefused := by
  intro s off w a rest h ha hwindow hbad
  have hrefuse : hostAccess a (s.moveOn rest) = (s.moveOn rest).refuseAccess := by
    have hloc := locate_frame s.params off hwindow
    have hok : frameAccessOk s.params off w = false := frameAccessOk_eq_false hbad
    obtain rfl | ⟨v, rfl⟩ := ha <;> simp [hostAccess, hloc, hok]
  rw [step_of_hostNext h, hrefuse]
  rfl

/-- Settles O32: outside the regions the write races with nothing, so the read after it finds the written bytes. -/
theorem frameWriteThenReadGivesTheValue : Obligations.FrameWriteThenReadGivesTheValue := by
  intro s off w v rest hp h ha hi hout
  set s' := s.moveOn (.host (.read (s.params.fmemBase + off) w) :: rest)
  have hfree (k : Nat) (hk : k < w.bytes) : s'.regionBusy (off + k) = false :=
    State.regionBusy_eq_false fun l hl => hout l k hl hk
  have hdest (k : Nat) (hk : k < w.bytes) : (s'.writeFrame off w.bytes v).destBusy (off + k) = false := by
    rw [State.writeFrame_destBusy]
    exact State.destBusy_eq_false fun l hl => (hout l k hl hk).2
  have hread (k : Nat) (hk : k < w.bytes) :
      Memory.read (s'.writeFrame off w.bytes v).mem (off + k) = some (v.extractLsb' (8 * k) 8) := by
    rw [State.writeFrame_read_inside s' off v hk, hfree k hk]
    rfl
  refine ⟨_, step_frameWrite h hp ha hi, State.writeFrame_of_no_race v (State.racesAt_eq_false _ _ _ hfree),
    State.writeFrame_sameOutside s' off w.bytes v, hread, _,
    step_frameRead_of_written ⟨rfl, h.live⟩ hp ha hi hdest hread⟩

/-- Settles O33: byte k of the answer is the byte the host finds at offset + k, its last value outside the destination. -/
theorem busyReadOutsideDestinationIsCurrent : Obligations.BusyReadOutsideDestinationIsCurrent := by
  intro s off w rest hp h ha hi
  obtain ⟨v, hreply, hlt, hbyte⟩ := (s.moveOn rest).readFrame_word off w
  refine ⟨v, s.draws + w.bytes, ?_, hlt, fun k b hk hout hb => ?_⟩
  · rw [step_frameRead h hp ha hi, ← hreply]
    rfl
  · exact (hbyte k hk).trans (State.hostByte_of_read (State.destBusy_eq_false hout) hb k)

/-- Settles O34: one byte of the access in a region makes it a race, and `writeFrame` says what a race leaves. -/
theorem hostRaceIsRecorded : Obligations.HostRaceIsRecorded := by
  intro s l off w v rest hp h ha hi hl ⟨k, hk, hin⟩
  have hrace : (s.moveOn rest).racesAt off w.bytes = true :=
    (State.racesAt_iff _ _ _).2 ⟨k, hk, (State.regionBusy_iff _ _).2 ⟨l, hl, hin⟩⟩
  refine ⟨_, step_frameWrite h hp ha hi, ?_, fun k hk => ⟨_, State.writeFrame_read_inside _ off v hk, ?_⟩,
    State.writeFrame_sameOutside _ off w.bytes v⟩
  · exact State.writeFrame_of_race v hrace hl
  · intro hs hd
    have hfree : (s.moveOn rest).regionBusy (off + k) = false :=
      State.regionBusy_eq_false fun l' hl' => Option.some.inj (hl.symm.trans hl') ▸ ⟨hs, hd⟩
    rw [hfree]
    rfl

end Sys2Proof.Machine
end

section
/-! PROOFS. Encoding (30_encoding.md): the decoder and the encoder, an illegal latched word, `WAIT`, and the command
mnemonics of a host script. -/

namespace Sys2Proof.Machine

open Sys2Proof.Claims

/-! ### Command words -/

theorem instrOfOpcode_eq_some {op : BitVec 4} {i : Instr} : instrOfOpcode op = some i ↔ op = opcodeOf i := by
  cases i <;> revert op <;> decide

theorem instrOfOpcode_eq_none {op : BitVec 4} : instrOfOpcode op = none ↔ op = 0 ∨ 9 ≤ op.toNat := by
  revert op
  decide

/-- A word is the word of a command exactly when its two fields are (R80). -/
theorem eq_encode_iff {w : Word} {i : Instr} : w = encode i ↔ rsvdField w = 0 ∧ opcodeField w = opcodeOf i := by
  constructor
  · rintro rfl
    exact ⟨extract_append_high _ _, extract_append_low _ _⟩
  · rintro ⟨hr, ho⟩
    rw [word_eq_fields w, hr, ho, encode]

theorem decodeWord_of_rsvd_ne {w : Word} (h : rsvdField w ≠ 0) : decodeWord w = .error .reservedBits := if_neg h

theorem decodeWord_of_opcode_none {w : Word} (hr : rsvdField w = 0) (ho : instrOfOpcode (opcodeField w) = none) :
    decodeWord w = .error .illegalOpcode := by
  rw [decodeWord, if_pos hr, ho]

theorem decodeWord_of_opcode_some {w : Word} {i : Instr} (hr : rsvdField w = 0)
    (ho : instrOfOpcode (opcodeField w) = some i) : decodeWord w = .ok i := by
  rw [decodeWord, if_pos hr, ho]

/-- The decoder accepts the command words and no others (R81, R84). -/
theorem decodeWord_eq_ok {w : Word} {i : Instr} : decodeWord w = .ok i ↔ w = encode i := by
  refine ⟨fun h => ?_, fun h => h ▸ decodeWord_encode i⟩
  by_cases hr : rsvdField w = 0
  · cases ho : instrOfOpcode (opcodeField w) with
    | none => cases (decodeWord_of_opcode_none hr ho).symm.trans h
    | some j =>
      cases (decodeWord_of_opcode_some hr ho).symm.trans h
      exact eq_encode_iff.2 ⟨hr, instrOfOpcode_eq_some.1 ho⟩
  · cases (decodeWord_of_rsvd_ne hr).symm.trans h

/-- An illegal word has an illegal OPCODE or a reserved bit set (R84). -/
theorem decodeWord_eq_error {w : Word} :
    (∃ e, decodeWord w = .error e) ↔ instrOfOpcode (opcodeField w) = none ∨ rsvdField w ≠ 0 := by
  by_cases hr : rsvdField w = 0
  · cases ho : instrOfOpcode (opcodeField w) with
    | none => exact iff_of_true ⟨_, decodeWord_of_opcode_none hr ho⟩ (.inl rfl)
    | some i => simp [decodeWord_of_opcode_some hr ho, hr]
  · exact iff_of_true ⟨_, decodeWord_of_rsvd_ne hr⟩ (.inr hr)

/-- The eight command words (R81). -/
def commandWords : Finset Word := {1, 2, 3, 4, 5, 6, 7, 8}

theorem mem_commandWords {w : Word} : w ∈ commandWords ↔ ∃ i, w = encode i := by
  simp only [commandWords, Finset.mem_insert, Finset.mem_singleton]
  constructor
  · rintro (h | h | h | h | h | h | h | h)
    exacts [⟨.gblur, h⟩, ⟨.sobel, h⟩, ⟨.nms, h⟩, ⟨.thresh, h⟩, ⟨.hyst, h⟩, ⟨.htone, h⟩, ⟨.fsdith, h⟩,
      ⟨.boxds, h⟩]
  · rintro ⟨i, rfl⟩
    cases i <;> decide

theorem commandOf?_eq_none_iff_notMem {w : Word} : commandOf? w = none ↔ w ∉ commandWords := by
  simp only [mem_commandWords, not_exists, ← decodeWord_eq_ok, ← commandOf?_eq_some,
    Option.eq_none_iff_forall_ne_some, ne_eq]

/-- Settles O2: the decoder splits a word into its two fields, and the illegal words are the complement of the eight. -/
theorem legalWordsAreTheEightCommandWords : Obligations.LegalWordsAreTheEightCommandWords := by
  refine ⟨fun _ _ => decodeWord_eq_ok, fun w => ?_, ?_⟩
  · rw [decodeWord_eq_error, instrOfOpcode_eq_none]
    rfl
  · have hillegal : (Finset.univ.filter fun w : Word => commandOf? w = none) = commandWordsᶜ := by
      ext w
      simp [commandOf?_eq_none_iff_notMem]
    have hwords : Fintype.card Word = 2 ^ 32 := FinEnum.card_eq_fintypeCard.symm
    rw [hillegal, Finset.card_compl, hwords]
    rfl

theorem wordOfBytes_extract (w : Word) :
    wordOfBytes (w.extractLsb' 0 8) (w.extractLsb' 8 8) (w.extractLsb' 16 8) (w.extractLsb' 24 8) = w := by
  have h16 : w.extractLsb' 24 8 ++ w.extractLsb' 16 8 = w.extractLsb' 16 16 :=
    BitVec.extractLsb'_append_extractLsb'_eq_extractLsb' rfl
  have h24 : w.extractLsb' 16 16 ++ w.extractLsb' 8 8 = w.extractLsb' 8 24 :=
    BitVec.extractLsb'_append_extractLsb'_eq_extractLsb' rfl
  have h32 : w.extractLsb' 8 24 ++ w.extractLsb' 0 8 = w.extractLsb' 0 32 :=
    BitVec.extractLsb'_append_extractLsb'_eq_extractLsb' rfl
  rw [wordOfBytes, h16, h24, h32, BitVec.extractLsb'_eq_self]

/-- The head of a byte string that starts with the bytes of a command word (R80, R62). -/
theorem decode_bytesOfWord {w : Word} {i : Instr} (h : decodeWord w = .ok i) (rest : List Byte) :
    decode (bytesOfWord w ++ rest) = .ok (i, rest) := by
  simp only [bytesOfWord, List.cons_append, List.nil_append, decode, wordOfBytes_extract, h]

/-- Settles O1: the bytes put the word together again, and the word decodes to its command. -/
theorem decodeInvertsEncode : Obligations.DecodeInvertsEncode :=
  fun i rest _ => decode_bytesOfWord (decodeWord_encode i) rest

/-- Settles O3: the first eight words are the encoded commands; the others fail one test of the decoder each. -/
theorem writtenOutWordsDecode : Obligations.WrittenOutWordsDecode :=
  ⟨decodeWord_encode .gblur, decodeWord_encode .sobel, decodeWord_encode .nms, decodeWord_encode .thresh,
    decodeWord_encode .hyst, decodeWord_encode .htone, decodeWord_encode .fsdith, decodeWord_encode .boxds,
    decodeWord_of_opcode_none rfl rfl, decodeWord_of_opcode_none rfl rfl, decodeWord_of_rsvd_ne (by decide)⟩

/-! ### An illegal latched word -/

/-- Settles O5: the engine's turn fails the command with the code of ILLEGAL_CMD, in either of its two places. -/
theorem illegalCommandWordIsReported : Obligations.IllegalCommandWordIsReported := by
  intro s s' l hnext hl hnone
  obtain ⟨e, he⟩ := commandOf?_eq_none.1 hnone
  rw [step_of_engineNext hnext, engineTurn_illegal s' l e ((latch_of_engineNext hnext).trans hl) he]
  obtain ⟨-, rfl⟩ | ⟨rest, -, rfl⟩ := hnext <;> rfl

/-! ### WAIT -/

/-- A completion step clears BUSY, sets DONE and counts; it writes only what a command may write besides (R100, R106). -/
theorem engineTurn_completes {s : State} (hb : s.busy = true) :
    ∃ t, engineTurn s = .next t ∧
      t = { s with mem := t.mem, orient := t.orient, faults := t.faults, draws := t.draws, err := t.err,
                   errCode := t.errCode, latch := none, done := true, cmdCount := s.cmdCount + 1 } := by
  obtain ⟨l, hl⟩ := State.exists_latch_of_busy hb
  cases hd : decodeWord l.cmd with
  | error e => exact ⟨_, engineTurn_illegal s l e hl hd, rfl⟩
  | ok i =>
    rw [engineTurn_run s l i hl hd]
    obtain ⟨e, -, he⟩ | ⟨-, he⟩ := exec_cases i s l hl <;> exact ⟨_, he, rfl⟩

section Wait

variable {s : State} {rest : List Event}

theorem step_wait_busy (ha : s.agenda = .wait :: rest) (hb : s.busy = true) : step s = engineTurn s := by
  simp only [step, ha, waitStep, hb, if_true]

theorem step_wait_idle (ha : s.agenda = .wait :: rest) (hb : s.busy = false) :
    step s = .next (hostAccess (readRegAccess s.params .status) (s.moveOn rest)) := by
  simp only [step, ha, waitStep, hb, Bool.false_eq_true, if_false, State.moveOn]

/-- A WAIT that finds BUSY = 0 reads STATUS, and the read changes nothing but the bus answer (R38, R87). -/
theorem step_wait_reads (ha : s.agenda = .wait :: rest) (hb : s.busy = false) (hr : s.hardReset = false) :
    step s = .next { s with agenda := rest, reply := .data (s.regValue .status) } := by
  have hread : hostAccess (readRegAccess s.params .status) (s.moveOn rest) = (s.moveOn rest).readReg .status :=
    hostAccess_readReg (s.moveOn rest) .status hr
  have hdraws : (s.moveOn rest).regDraws .status = 0 := State.regDraws_eq_zero (by simp)
  rw [step_wait_idle ha hb, hread, State.readReg, hdraws]
  rfl

theorem hostAccess_of_hardReset (a : Access) (h : s.hardReset = true) : hostAccess a s = s.refuseAccess := if_pos h

end Wait

/-- Settles O51: the poll is the completion step, and it leaves the STATUS read that a WAIT with none running takes. -/
theorem waitEndsWithBusyClear : Obligations.WaitEndsWithBusyClear := by
  intro s rest ha
  refine ⟨fun hb hr => ?_, fun hb hr => ?_, fun hb hr => ?_⟩
  · obtain ⟨t, hstep, ht⟩ := engineTurn_completes hb
    have hidle : t.busy = false := by rw [ht]; rfl
    have hdone : t.done = true := by rw [ht]
    have hagenda : t.agenda = .wait :: rest := by rw [ht]; exact ha
    have hlive : t.hardReset = false := by rw [ht]; exact hr
    obtain ⟨hbit0, hbit1, -⟩ := statusWordLayout t
    exact ⟨t, (step_wait_busy ha hb).trans hstep, hidle, ht, step_wait_reads hagenda hidle hlive,
      hbit0.trans hidle, hbit1.trans hdone⟩
  · exact ⟨step_wait_reads ha hb hr, (statusWordLayout s).1.trans hb⟩
  · rw [step_wait_idle ha hb, hostAccess_of_hardReset (s := s.moveOn rest) _ hr]
    rfl

/-! ### Command mnemonics -/

theorem State.abort_moveOn (s : State) (rest : List Event) : (s.moveOn rest).abort = s.abort.moveOn rest := by
  obtain hl | ⟨l, hl⟩ := Option.eq_none_or_eq_some s.latch <;> simp [State.abort, State.moveOn, hl]

theorem State.writeCtrl_moveOn (s : State) (v : Word) (rest : List Event) :
    (s.moveOn rest).writeCtrl v = (s.writeCtrl v).moveOn rest := by
  unfold State.writeCtrl State.startAction
  split
  · rw [State.resetBlock, State.abort_moveOn]
    rfl
  · split
    · rw [apply_ite (State.moveOn · rest)]
      rfl
    · rfl

/-- A register write does not look at the agenda. -/
theorem State.writeReg_moveOn (s : State) (r : Reg) (v : Word) (rest : List Event) :
    (s.moveOn rest).writeReg r v = (s.writeReg r v).moveOn rest := by
  cases r with
  | ctrl => rw [State.writeReg, State.setReg, State.writeCtrl_moveOn]; rfl
  | id | status | cmd | srcBase | dstBase | srcDim | dstDim | orientDim | orientIndex | orientData | cmdCount
  | reserved => rfl

theorem WriteOutcome.params {s t : State} (ho : WriteOutcome s t) : t.params = s.params := by
  cases ho <;> simp [withOperands]

theorem WriteOutcome.hardReset {s t : State} (ho : WriteOutcome s t) : t.hardReset = s.hardReset := by
  cases ho <;> simp [withOperands]

@[simp] theorem State.writeReg_params (s : State) (r : Reg) (v : Word) : (s.writeReg r v).params = s.params :=
  (s.setReg_outcome r v).params

@[simp] theorem State.writeReg_hardReset (s : State) (r : Reg) (v : Word) :
    (s.writeReg r v).hardReset = s.hardReset :=
  (s.setReg_outcome r v).hardReset

/-- A list of register writes, one after the other. -/
def State.writeRegs (ws : List (Reg × Word)) (s : State) : State := ws.foldl (fun s w => s.writeReg w.1 w.2) s

theorem State.writeRegs_cons (r : Reg) (v : Word) (ws : List (Reg × Word)) (s : State) :
    s.writeRegs ((r, v) :: ws) = (s.writeReg r v).writeRegs ws := rfl

theorem State.writeRegs_concat (ws : List (Reg × Word)) (r : Reg) (v : Word) (s : State) :
    s.writeRegs (ws ++ [(r, v)]) = (s.writeRegs ws).writeReg r v := List.foldl_append

/-- The bus accesses of a list of register writes. -/
def writeEvents (p : Params) (ws : List (Reg × Word)) : List Event := ws.map fun w => writeRegEvent p w.1 w.2

/-- Run access by access, a list of register writes is taken whole (R38, R87). -/
theorem runFor_writeEvents {ws : List (Reg × Word)} {s : State} {rest : List Event} (hr : s.hardReset = false)
    (ha : s.agenda = writeEvents s.params ws ++ rest) :
    runFor (writeEvents s.params ws).length s = some ((s.moveOn rest).writeRegs ws) := by
  rw [writeEvents, List.length_map]
  induction ws generalizing s with
  | nil =>
    obtain rfl : s.agenda = rest := ha
    rfl
  | cons w ws ih =>
    obtain ⟨r, v⟩ := w
    have hstep : step s = .next ((s.moveOn (writeEvents s.params ws ++ rest)).writeReg r v) :=
      step_writeReg ⟨ha, hr⟩
    have hrun : runFor (ws.length + 1) s =
        runFor ws.length ((s.writeReg r v).moveOn (writeEvents s.params ws ++ rest)) := by
      rw [runFor, hstep, State.writeReg_moveOn]
    rw [List.length_cons, hrun, ih (by simpa using hr) (by simp [State.moveOn]), State.writeRegs_cons,
      State.writeReg_moveOn]
    rfl

/-- The register writes of a command mnemonic before its START (R88). -/
def operandWrites (c : Command) : List (Reg × Word) :=
  [(Reg.srcBase, BitVec.ofNat 32 c.src), (Reg.dstBase, BitVec.ofNat 32 c.dst), (Reg.srcDim, dimWord c.w c.h)] ++
  (if c.op = .boxds then [(Reg.dstDim, dimWord c.tw c.th)] else []) ++ [(Reg.cmd, encode c.op)]

theorem expandLine_op (p : Params) (c : Command) :
    expandLine p (.op c) = writeEvents p (operandWrites c ++ [(Reg.ctrl, startWord c.irq)]) := by
  simp only [expandLine, expandCommand, operandWrites, writeEvents]
  split <;> rfl

/-- What the operand writes leave: the command's operands, and DST_DIM for BOXDS alone (R88). -/
theorem State.writeRegs_operandWrites (s : State) (c : Command) :
    s.writeRegs (operandWrites c) =
      { withOperands s (encode c.op) (BitVec.ofNat 32 c.src) (BitVec.ofNat 32 c.dst) (dimWord c.w c.h)
          (if c.op = .boxds then dimWord c.tw c.th else s.dstDim) s.orientIndex with reply := .done } := by
  unfold operandWrites
  split <;> simp only [State.writeRegs, List.cons_append, List.nil_append, List.foldl_cons, List.foldl_nil,
    State.writeReg, State.setReg, withOperands]

/-- The START of a command mnemonic is accepted while no command runs (R23, R88). -/
theorem State.writeReg_startWord {s : State} (hb : s.busy = false) (irq : Bool) :
    s.writeReg .ctrl (startWord irq) = { { s with irqEn := irq }.acceptStart with reply := .done } := by
  have hbits : (startWord irq).getLsbD 1 = false ∧ (startWord irq).getLsbD 0 = true ∧
      (startWord irq).getLsbD 2 = irq := by cases irq <;> decide
  obtain ⟨h1, h0, h2⟩ := hbits
  have hbusy : { s with irqEn := irq }.busy = false := hb
  rw [State.writeReg, State.setReg, State.writeCtrl, h1, h0, h2, State.startAction, hbusy]
  rfl

theorem dimWord_eq_append {w h : Nat} (hw : w < 2 ^ 16) (hh : h < 2 ^ 16) :
    dimWord w h = BitVec.ofNat 16 h ++ BitVec.ofNat 16 w := by
  have hfit {n : Nat} (hn : n < 2 ^ 16) : BitVec.ofNat 32 n = (BitVec.ofNat 16 n).setWidth 32 :=
    (BitVec.setWidth_ofNat_of_le_of_lt (by decide) hn).symm
  rw [dimWord, hfit hw, hfit hh, ← BitVec.setWidth_append_eq_shiftLeft_setWidth_or, BitVec.setWidth_eq]

theorem dimWord_toNat {w h : Nat} (hw : w < 2 ^ 16) (hh : h < 2 ^ 16) :
    (lowHalf (dimWord w h)).toNat = w ∧ (highHalf (dimWord w h)).toNat = h := by
  rw [dimWord_eq_append hw hh, lowHalf, highHalf, extract_append_low, extract_append_high]
  exact ⟨Nat.mod_eq_of_lt hw, Nat.mod_eq_of_lt hh⟩

/-- Settles O42: the accesses are register writes taken in order, and the last is a START that latches the others. -/
theorem scriptCommandStartsWithItsOperands : Obligations.ScriptCommandStartsWithItsOperands := by
  intro s c rest hwf hr hb ha
  simp only [Command.wellFormed, Bool.and_eq_true, decide_eq_true_eq] at hwf
  obtain ⟨⟨⟨⟨⟨⟨-, hsrc⟩, hdst⟩, hw⟩, hh⟩, htw⟩, hth⟩ := hwf
  rw [expandLine_op] at ha ⊢
  have hrun := runFor_writeEvents hr ha
  rw [State.writeRegs_concat, State.writeRegs_operandWrites, State.writeReg_startWord (by exact hb)] at hrun
  obtain ⟨hwidth, hheight⟩ := dimWord_toNat hw hh
  refine ⟨_, _, hrun, rfl, rfl, decodeWord_encode c.op, Nat.mod_eq_of_lt hsrc, Nat.mod_eq_of_lt hdst, hwidth, hheight,
    fun hop => ?_, rfl, rfl, rfl⟩
  simp only [State.latchCommand, withOperands, if_pos hop]
  exact dimWord_toNat htw hth

end Sys2Proof.Machine
end

section
/-! PROOFS. Command common (40_command_common.md): START acceptance, the checks in their order, and the completion step. -/

namespace Sys2Proof.Machine

open Sys2Proof.Claims

/-! ### The checks in the order of their codes -/

/-- The six command errors in the order of R102. -/
def CmdError.inOrder : List CmdError := [.illegalCmd, .badDim, .badRatio, .range, .overlap, .noOrient]

theorem CmdError.mem_inOrder (e : CmdError) : e ∈ CmdError.inOrder := by cases e <;> decide

/-- The order of R102 is the order of the codes (R300). -/
theorem CmdError.inOrder_pairwise : CmdError.inOrder.Pairwise fun e e' => e.code < e'.code := by decide

/-- The errors that stand before `e` are those with a lower code. -/
theorem CmdError.mem_before_iff {before after : List CmdError} {e : CmdError}
    (hsplit : CmdError.inOrder = before ++ e :: after) (e' : CmdError) : e' ∈ before ↔ e'.code < e.code := by
  have hsorted := CmdError.inOrder_pairwise
  have hmem := e'.mem_inOrder
  rw [hsplit, List.pairwise_append, List.pairwise_cons] at hsorted
  obtain ⟨-, ⟨hafter, -⟩, hbefore⟩ := hsorted
  refine ⟨fun h => hbefore e' h e List.mem_cons_self, fun hlt => ?_⟩
  rw [hsplit, List.mem_append, List.mem_cons] at hmem
  obtain h | rfl | h := hmem
  · exact h
  · exact absurd hlt (BitVec.lt_irrefl _)
  · exact absurd hlt (BitVec.lt_asymm (hafter e' h))

/-- The first error in the list that meets a test is the one that does while none with a lower code does. -/
theorem CmdError.find?_inOrder_eq_some {test : CmdError → Bool} {e : CmdError} :
    CmdError.inOrder.find? test = some e ↔ test e = true ∧ ∀ e', e'.code < e.code → ¬ test e' = true := by
  rw [List.find?_eq_some_iff_append]
  refine and_congr_right fun _ => ⟨fun ⟨before, after, hsplit, hbefore⟩ e' hlt => ?_, fun h => ?_⟩
  · simpa using hbefore e' ((CmdError.mem_before_iff hsplit e').2 hlt)
  · obtain ⟨before, after, hsplit⟩ := List.append_of_mem e.mem_inOrder
    exact ⟨before, after, hsplit, fun e' he' => by simpa using h e' ((CmdError.mem_before_iff hsplit e').1 he')⟩

/-- Check by check, the model's own test; check 1 is the decoder's, and a command must be known for checks 3 to 6. -/
def checkFails (p : Params) (i? : Option Instr) (l : Latch) : CmdError → Bool
  | .illegalCmd => i?.isNone
  | .badDim => badDim p l
  | .badRatio => i?.any (badRatio · l)
  | .range => i?.any (outOfRange p · l)
  | .overlap => i?.any (overlapping · l)
  | .noOrient => i?.any (missingOrient · l)

theorem checkFails_iff (p : Params) (i? : Option Instr) (l : Latch) (e : CmdError) :
    checkFails p i? l e = true ↔ Fails p i? l e := by
  cases e with
  | illegalCmd => exact Option.isNone_iff_eq_none
  | badDim => exact badDim_iff p l
  | badRatio => simp [checkFails, Fails, Option.any_eq_true, badRatio_iff]
  | range => simp only [checkFails, Fails, Option.any_eq_true, outOfRange_iff, destSize_eq_destCount]; rfl
  | overlap => simp only [checkFails, Fails, Option.any_eq_true, overlapping_iff, destSize_eq_destCount]; rfl
  | noOrient => simp [checkFails, Fails, Option.any_eq_true, missingOrient_iff]

theorem checkOperands_eq_find? (p : Params) (i : Instr) (l : Latch) :
    checkOperands p i l = CmdError.inOrder.find? (checkFails p (some i) l) := by
  unfold checkOperands
  split_ifs <;> simp [CmdError.inOrder, checkFails, *]

theorem outcome_eq_find? (p : Params) (l : Latch) :
    l.outcome p = CmdError.inOrder.find? (checkFails p (commandOf? l.cmd) l) := by
  unfold Latch.outcome Latch.command?
  cases commandOf? l.cmd with
  | none => rfl
  | some i => exact checkOperands_eq_find? p i l

/-- The first failing check, by the model and by the rules (R102). -/
theorem find?_checkFails_eq_some (p : Params) (i? : Option Instr) (l : Latch) (e : CmdError) :
    CmdError.inOrder.find? (checkFails p i? l) = some e ↔ FirstFails p i? l e := by
  simp only [CmdError.find?_inOrder_eq_some, checkFails_iff, FirstFails]

/-- Settles O14: both sides name the first of the six checks, in one list, that fails. -/
theorem firstFailingCheckIsTheOutcome : Obligations.FirstFailingCheckIsTheOutcome := by
  refine ⟨rfl, fun p l => ⟨fun e => ?_, ?_⟩⟩
  · rw [outcome_eq_find?, find?_checkFails_eq_some]
  · simp only [outcome_eq_find?, List.find?_eq_none, checkFails_iff, CmdError.mem_inOrder, forall_const]

/-! ### The completion step -/

/-- Settles O16: a completion fails with its first failing check and writes no memory, or delivers within its region. -/
theorem everyCommandCompletesWithinItsRegion : Obligations.EveryCommandCompletesWithinItsRegion := by
  intro i s l hl
  obtain ⟨e, hc, he⟩ | ⟨-, he⟩ := exec_cases i s l hl
  · have hfirst : FirstFails s.params (some i) l e := by
      rw [← find?_checkFails_eq_some, ← checkOperands_eq_find?, hc]
    exact ⟨_, he, rfl, rfl, rfl, fun _ => .inr ⟨e, hfirst⟩, rfl, fun _ => rfl, fun _ _ => rfl⟩
  · exact ⟨_, he, rfl, rfl, rfl, .inl, rfl, fun hi => State.delivered_orient_keep hi l s,
      State.delivered_sameOutside i l s⟩

/-- Settles O20: each destination byte is the family's, a function of the latch, the parameters and the free values. -/
theorem resultComesFromTheSnapshot : Obligations.ResultComesFromTheSnapshot := by
  intro i s l S m ⟨hl, hcalm, hp, hS⟩
  have hu := readsUnwritten_of_holdsSource hS
  refine ⟨_, _, exec_of_passes hl hp, exec_of_passes (s := { s with mem := m }) hl hp, rfl, fun n hn => ?_⟩
  rw [← destSize_eq_destCount, ← destOf_length i s.params l (l.sample s.draws)] at hn
  exact (State.delivered_read_inside i l { s with mem := m } n hu hcalm hn).trans
    (State.delivered_read_inside i l s n hu hcalm hn).symm

/-- Taking the engine's turn off the agenda touches nothing else. -/
theorem exists_moveOn_of_engineNext {s s' : State} (h : EngineNext s s') : ∃ rest, s' = s.moveOn rest := by
  obtain ⟨-, rfl⟩ | ⟨rest, -, rfl⟩ := h
  · exact ⟨s'.agenda, rfl⟩
  · exact ⟨rest, rfl⟩

/-- Settles O49: the engine's turn is the completion step, in a state that differs from `s` in its agenda only. -/
theorem busyEngineCompletes : Obligations.BusyEngineCompletes := by
  intro s s' hnext hb
  have hstep := step_of_engineNext hnext
  obtain ⟨rest, rfl⟩ := exists_moveOn_of_engineNext hnext
  obtain ⟨t, hturn, ht⟩ := engineTurn_completes (s := s.moveOn rest) hb
  refine ⟨t, hstep.trans hturn, by rw [ht]; rfl, ht, ?_⟩
  rw [ht]
  exact ⟨rfl, rfl, rfl, rfl, rfl, rfl, rfl, rfl, rfl⟩

/-! ### START acceptance -/

theorem State.writeCtrl_startAccepted {s : State} {v : Word} (hb : s.busy = false) (h0 : v.getLsbD 0 = true)
    (h1 : v.getLsbD 1 = false) : s.writeCtrl v = { s with irqEn := v.getLsbD 2 }.acceptStart := by
  have hb' : { s with irqEn := v.getLsbD 2 }.busy = false := hb
  rw [State.writeCtrl, h1, h0, State.startAction, hb']
  rfl

/-- NMS, whose word is 3, latches the ORIENT buffer (R36, R81). -/
theorem snapshotOrient_eq (cmd : Word) (o : Orient) :
    snapshotOrient cmd o = if cmd = 3 then o else ⟨false, 0, 0, []⟩ := by
  simp only [snapshotOrient, commandOf?_eq_some, decodeWord_eq_ok]
  rfl

/-- Inside the source region the snapshot reads as frame memory did at START (R103). -/
theorem State.latchCommand_source_read (s : State) {k : Nat}
    (hk : k < s.latchCommand.w.toNat * s.latchCommand.h.toNat) :
    Memory.read s.latchCommand.source (s.latchCommand.src.toNat + k) =
      Memory.read s.mem (s.latchCommand.src.toNat + k) :=
  (Memory.read_slice ..).trans (if_pos ⟨Nat.le_add_right _ _, Nat.add_lt_add_left hk _⟩)

/-- Settles O21: the CTRL write is the START acceptance, and `latchCommand` says field by field what it latches. -/
theorem startAcceptanceLatchesTheCommand : Obligations.StartAcceptanceLatchesTheCommand := by
  intro s v rest h hb h0 h1
  have hstart : (s.moveOn rest).writeReg .ctrl v =
      { { s.moveOn rest with irqEn := v.getLsbD 2 }.acceptStart with reply := .done } := by
    rw [State.writeReg, State.setReg, State.writeCtrl_startAccepted (by exact hb) h0 h1]
  refine ⟨s.latchCommand, _, (step_writeReg h).trans (congrArg _ hstart), rfl, rfl, rfl, rfl, rfl, rfl, rfl, rfl, rfl,
    fun k => s.latchCommand_source_read, snapshotOrient_eq s.cmd s.orient⟩

/-! ### No behaviour is stuck -/

theorem EngineOutcome.params {s t : State} (ho : EngineOutcome s t) : t.params = s.params := by cases ho <;> rfl

theorem hostAccess_params (a : Access) (s : State) : (hostAccess a s).params = s.params := by
  obtain ha | ⟨-, r, ha⟩ | ⟨-, r, v, ha⟩ | ⟨-, off, n, -, ha⟩ | ⟨-, off, n, v, -, ha⟩ := hostAccess_cases a s <;>
    rw [ha]
  · rfl
  · rfl
  · exact s.writeReg_params r v
  · rfl
  · rfl

/-- No step writes the parameters (R109). -/
theorem step_params {s t : State} (h : step s = .next t) : t.params = s.params := by
  refine step_rel (R := fun s t => t.params = s.params) ?_ ?_ ?_ ?_ ?_ ?_ h
  · exact fun s rest t hR => hR
  · exact fun s t ho => ho.params
  · exact hostAccess_params
  · exact State.resetBlock_params
  · exact State.releaseReset_params
  · exact State.resetBlock_params

/-- The engine's turn answers a next state, whether a command runs or not (R84, R106, R315). -/
theorem engineTurn_next (s : State) : ∃ t, engineTurn s = .next t := by
  cases hl : s.latch with
  | none => exact ⟨s, engineTurn_idle s hl⟩
  | some l =>
    obtain ⟨t, ht, -⟩ := engineTurn_completes (s := s) (by simp [State.busy, hl])
    exact ⟨t, ht⟩

theorem waitStep_next (rest : List Event) (s : State) : ∃ t, waitStep rest s = .next t := by
  unfold waitStep
  split
  · exact engineTurn_next s
  · exact ⟨_, rfl⟩

theorem step_next (s : State) : ∃ t, step s = .next t := by
  unfold step
  split
  · exact engineTurn_next s
  · exact ⟨_, rfl⟩
  · exact engineTurn_next _
  · exact waitStep_next _ s
  · exact ⟨_, rfl⟩
  · exact ⟨_, rfl⟩
  · exact ⟨_, rfl⟩

/-- Settles O43: the engine's turn and every event answer a next state, and none of them writes the parameters. -/
theorem everyStepAnswersNext : Obligations.EveryStepAnswersNext := by
  intro s
  obtain ⟨t, ht⟩ := step_next s
  exact ⟨t, ht, step_params ht⟩

end Sys2Proof.Machine
end

section
/-! PROOFS. GBLUR (41_gaussian_blur.md), after what every command that is ready to complete does. -/

namespace Sys2Proof.Machine

open Sys2Proof.Claims

/-! ### The completion of a command that is ready -/

/-- The sample of a plane that the snapshot holds is the plane's (R103, R104). -/
theorem Latch.sample_of_holdsSource {l : Latch} {S : Nat → Nat → Nat} (h : HoldsSource l S) (d : Nat) {r c : Nat}
    (hr : r < l.h.toNat) (hc : c < l.w.toNat) : l.sample d r c = S r c := by
  obtain ⟨b, hb, hS⟩ := h r c hr hc
  exact (l.sample_written d r c b hb).trans hS

section Ready

variable {i : Instr} {s : State} {l : Latch} {S : Nat → Nat → Nat} (h : Ready i s l S)

include h

theorem exec_of_ready : exec i s = .next (s.delivered i l) := exec_of_passes h.latched h.checks

/-- A ready command records no fault and takes no free value; only SOBEL changes the ORIENT buffer too. -/
theorem State.delivered_completed :
    Completed { s with orient := (s.delivered i l).orient } (s.delivered i l) := by
  simp [Completed, State.delivered, State.deliver, State.retire, readsUnwritten_of_holdsSource h.source, h.calm]

theorem State.delivered_completed_keep (hi : i ≠ .sobel) : Completed s (s.delivered i l) := by
  have hcompleted := State.delivered_completed h
  rwa [State.delivered_orient_keep hi] at hcompleted

/-- Where the family's rule renders a plane of bytes, the destination holds that plane (R104, R105). -/
theorem State.delivered_byteIs_of_render {wd hd r c : Nat} {D : Plane}
    (hD : destOf i s.params l (l.sample s.draws) = render wd hd D) (hr : r < hd) (hc : c < wd) (hle : D r c ≤ 255) :
    ByteIs (s.delivered i l).mem (l.dst.toNat + (r * wd + c)) (D r c) := by
  have hk : r * wd + c < (render wd hd D).length := by
    rw [render_length]
    exact index_lt hr hc
  have hread := State.delivered_read_inside i l s (r * wd + c) (readsUnwritten_of_holdsSource h.source) h.calm
    (by rwa [hD])
  exact ⟨BitVec.ofNat 8 (D r c), hread.trans (by simp only [hD, render_getElem wd hd D r c hc hk]),
    Nat.mod_eq_of_lt (by omega)⟩

end Ready

/-! ### The blurred plane -/

/-- Σ as R121 writes it, in one sum. -/
theorem blurSum_eq (S : Plane) (r c : Nat) :
    blurSum S r c =
      1 * S (r - 1) (c - 1) + 2 * S (r - 1) c + 1 * S (r - 1) (c + 1)
        + 2 * S r (c - 1) + 4 * S r c + 2 * S r (c + 1)
        + 1 * S (r + 1) (c - 1) + 2 * S (r + 1) c + 1 * S (r + 1) (c + 1) := by
  simp only [blurSum, Nat.add_assoc]

/-- The weights add up to 16: 4 in the outer rows, twice that in the middle one (R121). -/
theorem blurSum_le {S : Plane} {m : Nat} (hS : ∀ r c, S r c ≤ m) (r c : Nat) : blurSum S r c ≤ 16 * m := by
  have hrow : ∀ r', S r' (c - 1) + 2 * S r' c + S r' (c + 1) ≤ 4 * m := fun r' => by
    linarith only [hS r' (c - 1), hS r' c, hS r' (c + 1)]
  rw [blurSum]
  linarith only [hrow (r - 1), hrow r, hrow (r + 1)]

/-- The narrowing cast never wraps (R121, R124). -/
theorem blurPixel_le {S : Plane} {m : Nat} (hS : ∀ r c, S r c ≤ m) (w h r c : Nat) : blurPixel w h S r c ≤ m := by
  unfold blurPixel
  split
  · exact Nat.div_le_of_le_mul (blurSum_le hS r c)
  · exact hS r c

/-- Every neighbour of an interior pixel lies inside the plane, so what stands outside does not matter. -/
theorem blurPixel_congr {w h : Nat} {S S' : Plane} (hS : ∀ r c, r < h → c < w → S r c = S' r c) {r c : Nat}
    (hr : r < h) (hc : c < w) : blurPixel w h S r c = blurPixel w h S' r c := by
  unfold blurPixel
  split_ifs with hin
  · obtain ⟨-, hr2, -, hc2⟩ := (isInterior_iff w h r c).1 hin
    have hrow : ∀ r', r' < h → S r' (c - 1) = S' r' (c - 1) ∧ S r' c = S' r' c ∧ S r' (c + 1) = S' r' (c + 1) :=
      fun r' hr' => ⟨hS r' _ hr' (by omega), hS r' c hr' hc, hS r' _ hr' (by omega)⟩
    simp only [blurSum, hrow (r - 1) (by omega), hrow r hr, hrow (r + 1) (by omega)]
  · exact hS r c hr hc

/-- The rule's pixel, with the interior as the statements write it (R121, R122). -/
theorem blurPixel_eq (l : Latch) (S : Plane) (r c : Nat) :
    blurPixel l.width l.height S r c = if Inside l r c then blurSum S r c / 16 else S r c := by
  simp only [blurPixel, isInterior_iff]
  rfl

/-- Settles O6: the destination holds the rule's plane of the samples, and the samples inside the plane are S. -/
theorem gblurWritesTheTruncatedMean : Obligations.GblurWritesTheTruncatedMean := by
  intro s l S h
  refine ⟨s.delivered .gblur l, exec_of_ready h, State.delivered_completed_keep h (by decide),
    State.delivered_sameOutside .gblur l s, fun r c hr hc => ?_⟩
  have hsamples : blurPixel l.width l.height (l.sample s.draws) r c = blurPixel l.width l.height S r c :=
    blurPixel_congr (fun _ _ => Latch.sample_of_holdsSource h.source s.draws) hr hc
  rw [← blurSum_eq, ← blurPixel_eq, ← hsamples]
  exact State.delivered_byteIs_of_render h rfl hr hc (blurPixel_le (l.sample_le s.draws) _ _ r c)

end Sys2Proof.Machine
end

section
/-! PROOFS. SOBEL (42_sobel_gradient.md): the rounded root in integers and in reals, and the completion. -/

namespace Sys2Proof.Machine

open Sys2Proof.Claims

/-! ### The rounded root -/

/-- Four times the square of a half-integer is odd, four times `n` is even (R143). -/
theorem sqrt_ne_half_integer (n : ℕ) (k : ℤ) : √(n : ℝ) ≠ k + 1 / 2 := by
  intro h
  have hsq : (n : ℝ) = (k + 1 / 2) ^ 2 := by rw [← h, Real.sq_sqrt n.cast_nonneg]
  have hfour : 4 * (n : ℤ) = 4 * (k * k + k) + 1 := by
    have hreal : 4 * (n : ℝ) = 4 * (k * k + k) + 1 := by rw [hsq]; ring
    exact_mod_cast hreal
  omega

/-- The bounds of R143 on integers put the root within a half of `roundSqrt n`, which is the rounding of R142. -/
theorem round_sqrt_eq_roundSqrt (n : ℕ) : round √(n : ℝ) = roundSqrt n := by
  obtain rfl | hpos := Nat.eq_zero_or_pos n
  · simp
  obtain ⟨-, hle, hlt⟩ := roundSqrt_spec n
  have hlo : (roundSqrt n : ℝ) * roundSqrt n + 1 ≤ n + roundSqrt n := by exact_mod_cast hlt hpos
  have hhi : (n : ℝ) ≤ roundSqrt n * roundSqrt n + roundSqrt n := by exact_mod_cast hle
  have hbelow : (roundSqrt n : ℝ) - 1 / 2 ≤ √n := Real.le_sqrt_of_sq_le (by linarith only [hlo])
  have habove : √(n : ℝ) < roundSqrt n + 1 / 2 := (Real.sqrt_lt' (by positivity)).2 (by linarith only [hhi])
  rw [round_eq, Int.floor_eq_iff]
  push_cast
  exact ⟨by linarith only [hbelow], by linarith only [habove]⟩

/-- The root rounds above 255 exactly beyond 255² + 255 (R143). -/
theorem roundSqrt_gt_255_iff (n : ℕ) : 255 < roundSqrt n ↔ 65280 < n := by
  obtain ⟨hlo, hhi, hlt⟩ := roundSqrt_spec n
  refine ⟨fun h => ?_, fun h => ?_⟩
  · have hsq : 256 * roundSqrt n ≤ roundSqrt n * roundSqrt n := Nat.mul_le_mul_right _ h
    have hnear := hlt (by omega)
    omega
  · by_contra! hle
    have hsq : roundSqrt n * roundSqrt n ≤ 255 * 255 := Nat.mul_le_mul hle hle
    omega

theorem Grad.normSq_cast (g : Grad) : (g.normSq : ℤ) = g.gx * g.gx + g.gy * g.gy := by
  simp only [Grad.normSq, Nat.cast_add, Int.natAbs_mul_self]

@[simp] theorem magnitude_zero : magnitude ⟨0, 0⟩ = 0 := by decide

theorem magnitude_le_255 (g : Grad) : magnitude g ≤ 255 := Nat.min_le_left ..

/-- The magnitude as R142 writes it, over the reals. -/
theorem magnitude_cast (g : Grad) :
    (magnitude g : ℤ) = min 255 (round √((g.gx : ℝ) ^ 2 + (g.gy : ℝ) ^ 2)) := by
  have hnorm : (g.gx : ℝ) ^ 2 + (g.gy : ℝ) ^ 2 = g.normSq := by
    have hcast := congrArg (Int.cast : ℤ → ℝ) g.normSq_cast
    push_cast at hcast
    rw [hcast, sq, sq]
  rw [hnorm, round_sqrt_eq_roundSqrt, magnitude, Nat.cast_min]
  rfl

/-- Settles O52: the integer of R143 is `roundSqrt n`. -/
theorem magnitudeIsTheRoundedRoot : Obligations.MagnitudeIsTheRoundedRoot := by
  intro g
  refine ⟨sqrt_ne_half_integer g.normSq, g.normSq_cast, fun hpos => ?_, fun hzero => ?_⟩
  · obtain ⟨-, hle, hlt⟩ := roundSqrt_spec g.normSq
    have hone : 1 ≤ roundSqrt g.normSq := by
      by_contra! h
      rw [Nat.lt_one_iff.1 h] at hle
      omega
    refine ⟨roundSqrt g.normSq, by exact_mod_cast hone, ?_, by exact_mod_cast hle, Nat.cast_min .., ?_⟩
    · rw [sub_lt_iff_lt_add]
      exact_mod_cast hlt hpos
    · exact_mod_cast roundSqrt_gt_255_iff g.normSq
  · rw [magnitude, hzero, roundSqrt_zero, Nat.min_zero]

/-! ### The gradient plane -/

/-- The two sums as R141 writes them, over the integers. -/
theorem sobelPair_eq (S : Plane) (r c : Nat) : sobelPair S r c = ⟨sobelGx S r c, sobelGy S r c⟩ := by
  simp only [sobelPair, sobelGx, sobelGy]
  push_cast
  rfl

/-- The pair of a pixel, with the interior as the statements write it (R141, R146). -/
theorem gradEntry_eq (l : Latch) (S : Plane) (r c : Nat) : gradEntry l.width l.height S r c =
    if Inside l r c then ⟨sobelGx S r c, sobelGy S r c⟩ else ⟨0, 0⟩ := by
  simp only [gradEntry, isInterior_iff, sobelPair_eq]
  rfl

/-- Every neighbour of an interior pixel lies inside the plane, so what stands outside does not matter. -/
theorem gradEntry_congr {w h : Nat} {S S' : Plane} (hS : ∀ r c, r < h → c < w → S r c = S' r c) (r c : Nat) :
    gradEntry w h S r c = gradEntry w h S' r c := by
  unfold gradEntry
  split_ifs with hin
  · obtain ⟨-, hr, -, hc⟩ := (isInterior_iff w h r c).1 hin
    have hrow : ∀ r', r' < h → S r' (c - 1) = S' r' (c - 1) ∧ S r' c = S' r' c ∧ S r' (c + 1) = S' r' (c + 1) :=
      fun r' hr' => ⟨hS r' _ hr' (by omega), hS r' c hr' (by omega), hS r' _ hr' (by omega)⟩
    simp only [sobelPair, hrow (r - 1) (by omega), hrow r (by omega), hrow (r + 1) (by omega)]
  · rfl

/-- The byte of a pixel is the magnitude of its pair; the border's pair (0, 0) has magnitude 0 (R142, R146). -/
theorem sobelPixel_eq_magnitude (w h : Nat) (S : Plane) (r c : Nat) :
    sobelPixel w h S r c = magnitude (gradEntry w h S r c) := by
  simp only [sobelPixel, gradEntry, apply_ite magnitude, magnitude_zero]

/-- Pair r·W + c of the new ORIENT buffer is the pair of pixel (r, c) (R145). -/
theorem sobelOrient_pairs_getElem? (l : Latch) (S : Plane) (o : Orient) {r c : Nat} (hr : r < l.height)
    (hc : c < l.width) : (sobelOrient l S o).pairs[r * l.width + c]? = some (gradEntry l.width l.height S r c) := by
  have hpos : (r * l.width + c) / l.width = r ∧ (r * l.width + c) % l.width = c :=
    (Nat.div_mod_unique (Nat.zero_lt_of_lt hc)).2 ⟨by ring, hc⟩
  have hindex : r * l.width + c < l.srcSize := index_lt hr hc
  rw [sobelOrient, List.getElem?_map, List.getElem?_range hindex, Option.map_some, hpos.1, hpos.2]

/-! ### The completion -/

/-- A command that fails its checks keeps the ORIENT buffer, SOBEL too (R145). -/
theorem exec_keeps_orient_of_firstFails {i : Instr} {s : State} {l : Latch} {e : CmdError} (hl : s.latch = some l)
    (hfirst : FirstFails s.params (some i) l e) : ∃ t, exec i s = .next t ∧ t.orient = s.orient := by
  refine ⟨s.failCommand e, exec_fail i s l e hl ?_, s.failCommand_orient e⟩
  rwa [checkOperands_eq_find?, find?_checkFails_eq_some]

/-- Settles O7: byte and pair of each pixel come from the gradient entry of the samples, which inside the plane are S. -/
theorem sobelWritesMagnitudeAndOrient : Obligations.SobelWritesMagnitudeAndOrient := by
  refine ⟨fun s l e => exec_keeps_orient_of_firstFails, fun s l S h => ?_⟩
  have hgood := sobelOrient_good (l.sample_le s.draws) (checkOperands_of_passes h.checks) s.orient
  refine ⟨s.delivered .sobel l, exec_of_ready h, State.delivered_completed h, State.delivered_sameOutside .sobel l s,
    rfl, rfl, rfl, hgood.count, fun r c hr hc => ?_⟩
  have hentry : gradEntry l.width l.height (l.sample s.draws) r c =
      if Inside l r c then ⟨sobelGx S r c, sobelGy S r c⟩ else ⟨0, 0⟩ := by
    rw [← gradEntry_eq]
    exact gradEntry_congr (fun _ _ => Latch.sample_of_holdsSource h.source s.draws) r c
  refine ⟨(sobelOrient_pairs_getElem? l _ s.orient hr hc).trans (congrArg some hentry), ?_⟩
  have hpixel : sobelPixel l.width l.height (l.sample s.draws) r c =
      magnitude (if Inside l r c then ⟨sobelGx S r c, sobelGy S r c⟩ else ⟨0, 0⟩) := by
    rw [sobelPixel_eq_magnitude, hentry]
  obtain ⟨b, hread, hb⟩ := State.delivered_byteIs_of_render h rfl hr hc (hpixel ▸ magnitude_le_255 _)
  refine ⟨b, hread, ?_⟩
  rw [hb, hpixel, apply_ite magnitude, magnitude_zero, Nat.cast_ite, magnitude_cast]
  rfl

end Sys2Proof.Machine
end

section
/-! PROOFS. NMS (43_non_max_suppression.md): the sector as a bucket of the angle, and the completion. -/

namespace Sys2Proof.Machine

open Sys2Proof.Claims

-- Proofs in parallel leave memory in use in every thread: checked one by one, the whole text stays below the check's limit.
set_option Elab.async false

/-! ### The integer test over the reals -/

/-- The comparison of squares in R162 is a comparison with a multiple of √2. -/
theorem sq_lt_two_mul_sq_iff (m n : ℕ) : m * m < 2 * (n * n) ↔ (m : ℝ) < √2 * n := by
  rw [← sq_lt_sq₀ (a := (m : ℝ)) (by positivity) (by positivity), mul_pow, Real.sq_sqrt zero_le_two]
  norm_cast
  rw [sq, sq]

/-- The sector test of R162 over the reals. -/
theorem sector_eq (g : Grad) : sector g =
    if g.gx = 0 ∧ g.gy = 0 then .H
    else if |(g.gx : ℝ)| + |(g.gy : ℝ)| < √2 * |(g.gx : ℝ)| then .H
    else if |(g.gx : ℝ)| + |(g.gy : ℝ)| < √2 * |(g.gy : ℝ)| then .V
    else if 0 < g.gx * g.gy then .D1 else .D2 := by
  simp only [sector, sq_lt_two_mul_sq_iff, Nat.cast_add, Nat.cast_natAbs, Int.cast_abs]

/-- No integer pair but (0, 0) lies on a boundary, since √2 is irrational (R162). -/
theorem sqrt_two_mul_abs_ne {x y : ℤ} (h : ¬(x = 0 ∧ y = 0)) : √2 * |(x : ℝ)| ≠ |(x : ℝ)| + |(y : ℝ)| := by
  by_cases hx : x = 0
  · simpa [hx, eq_comm] using h
  · have hne := (irrational_sqrt_two.mul_natCast (Int.natAbs_ne_zero.2 hx)).ne_nat (x.natAbs + y.natAbs)
    simpa using hne

/-- A pair and its negation share a sector: the test reads absolute values and the sign of a product (R162). -/
theorem sector_neg (g : Grad) : sector ⟨-g.gx, -g.gy⟩ = sector g := by
  simp only [sector, Int.natAbs_neg, neg_eq_zero, neg_mul_neg]

/-! ### The angle -/

/-- In the upper half plane an angle is compared by the sign of a sine. -/
theorem lt_arg_iff {z : ℂ} (hz : z ≠ 0) (him : 0 ≤ z.im) {α : ℝ} (hpos : 0 < α) (hlt : α < Real.pi) :
    α < z.arg ↔ z.re * Real.sin α < z.im * Real.cos α := by
  have hsin : z.im * Real.cos α - z.re * Real.sin α = ‖z‖ * Real.sin (z.arg - α) := by
    rw [Real.sin_sub, mul_sub, ← mul_assoc, ← mul_assoc, Complex.norm_mul_sin_arg, Complex.norm_mul_cos_arg]
  rw [← sub_pos (a := z.im * _), hsin, mul_pos_iff_of_pos_left (norm_pos_iff.2 hz)]
  have hnonneg := Complex.arg_nonneg_iff.2 him
  have hle := z.arg_le_pi
  refine ⟨fun h => Real.sin_pos_of_pos_of_lt_pi (by linarith) (by linarith), fun h => ?_⟩
  by_contra! hge
  exact h.not_ge (Real.sin_nonpos_of_nonpos_of_neg_pi_le (by linarith) (by linarith))

theorem cos_pi_div_eight_pos : 0 < Real.cos (Real.pi / 8) := by
  rw [Real.cos_pi_div_eight]
  positivity

/-- The tangent of π/8 is √2 − 1, from the sine and cosine of twice the angle. -/
theorem sin_pi_div_eight : Real.sin (Real.pi / 8) = Real.cos (Real.pi / 8) * (√2 - 1) := by
  have hsin := Real.sin_two_mul (Real.pi / 8)
  have hcos := Real.cos_two_mul (Real.pi / 8)
  rw [show 2 * (Real.pi / 8) = Real.pi / 4 by ring, Real.sin_pi_div_four] at hsin
  rw [show 2 * (Real.pi / 8) = Real.pi / 4 by ring, Real.cos_pi_div_four] at hcos
  have htwo : √2 * √2 = 2 := Real.mul_self_sqrt zero_le_two
  refine mul_left_cancel₀ cos_pi_div_eight_pos.ne' ?_
  linear_combination (-1 / 2) * hsin + (√2 - 1) / 2 * hcos - 1 / 4 * htwo

section UpperHalfPlane

variable {z : ℂ} (hz : z ≠ 0) (him : 0 ≤ z.im)

include hz him

/-- `lt_arg_iff` where sine and cosine are known as multiples of cos(π/8). -/
theorem lt_arg_iff_of_cos_pi_div_eight {α p q : ℝ} (hpos : 0 < α) (hlt : α < Real.pi)
    (hcos : Real.cos α = Real.cos (Real.pi / 8) * p) (hsin : Real.sin α = Real.cos (Real.pi / 8) * q) :
    α < z.arg ↔ z.re * q < z.im * p := by
  rw [lt_arg_iff hz him hpos hlt, hcos, hsin, mul_left_comm, mul_left_comm z.im,
    mul_lt_mul_iff_right₀ cos_pi_div_eight_pos]

/-! The four boundaries of R162, as linear inequalities in the pair: 3π/8, 5π/8 and 7π/8 are
π/8 taken from or added to π/2 and π. -/

theorem pi_div_eight_lt_arg_iff : Real.pi / 8 < z.arg ↔ z.re * (√2 - 1) < z.im * 1 :=
  lt_arg_iff_of_cos_pi_div_eight hz him (by positivity) (by linarith [Real.pi_pos])
    (mul_one _).symm sin_pi_div_eight

theorem three_pi_div_eight_lt_arg_iff : 3 * Real.pi / 8 < z.arg ↔ z.re * 1 < z.im * (√2 - 1) := by
  have hα : 3 * Real.pi / 8 = Real.pi / 2 - Real.pi / 8 := by ring
  exact lt_arg_iff_of_cos_pi_div_eight hz him (by positivity) (by linarith [Real.pi_pos])
    (by rw [hα, Real.cos_pi_div_two_sub, sin_pi_div_eight])
    (by rw [hα, Real.sin_pi_div_two_sub, mul_one])

theorem five_pi_div_eight_lt_arg_iff : 5 * Real.pi / 8 < z.arg ↔ z.re * 1 < z.im * -(√2 - 1) := by
  have hα : 5 * Real.pi / 8 = Real.pi / 8 + Real.pi / 2 := by ring
  exact lt_arg_iff_of_cos_pi_div_eight hz him (by positivity) (by linarith [Real.pi_pos])
    (by rw [hα, Real.cos_add_pi_div_two, sin_pi_div_eight, mul_neg])
    (by rw [hα, Real.sin_add_pi_div_two, mul_one])

theorem seven_pi_div_eight_lt_arg_iff : 7 * Real.pi / 8 < z.arg ↔ z.re * (√2 - 1) < z.im * -1 := by
  have hα : 7 * Real.pi / 8 = Real.pi - Real.pi / 8 := by ring
  exact lt_arg_iff_of_cos_pi_div_eight hz him (by positivity) (by linarith [Real.pi_pos])
    (by rw [hα, Real.cos_pi_sub, mul_neg_one])
    (by rw [hα, Real.sin_pi_sub, sin_pi_div_eight])

/-! The four sectors of R162, by the boundaries they lie between. -/

theorem inSector_H_of_lt (h : |z.re| + |z.im| < √2 * |z.re|) : InSector z.arg .H := by
  rw [abs_of_nonneg him] at h
  obtain hre | hre := le_total 0 z.re
  · rw [abs_of_nonneg hre] at h
    refine .inl ⟨Complex.arg_nonneg_iff.2 him, le_of_not_gt fun hgt => ?_⟩
    linarith [(pi_div_eight_lt_arg_iff hz him).1 hgt]
  · rw [abs_of_nonpos hre] at h
    exact .inr ⟨(seven_pi_div_eight_lt_arg_iff hz him).2 (by linarith), z.arg_le_pi⟩

theorem inSector_V_of_lt (h : |z.re| + |z.im| < √2 * |z.im|) : InSector z.arg .V := by
  rw [abs_of_nonneg him] at h
  refine ⟨(three_pi_div_eight_lt_arg_iff hz him).2 (by linarith [le_abs_self z.re]), le_of_not_gt fun hgt => ?_⟩
  linarith [(five_pi_div_eight_lt_arg_iff hz him).1 hgt, neg_abs_le z.re]

theorem inSector_D1_of_lt (hre : 0 < z.re) (hH : √2 * |z.re| < |z.re| + |z.im|)
    (hV : √2 * |z.im| < |z.re| + |z.im|) : InSector z.arg .D1 := by
  rw [abs_of_pos hre, abs_of_nonneg him] at hH hV
  refine ⟨(pi_div_eight_lt_arg_iff hz him).2 (by linarith), le_of_not_gt fun hgt => ?_⟩
  linarith [(three_pi_div_eight_lt_arg_iff hz him).1 hgt]

theorem inSector_D2_of_lt (hre : z.re ≤ 0) (hH : √2 * |z.re| < |z.re| + |z.im|)
    (hV : √2 * |z.im| < |z.re| + |z.im|) : InSector z.arg .D2 := by
  rw [abs_of_nonpos hre, abs_of_nonneg him] at hH hV
  refine ⟨(five_pi_div_eight_lt_arg_iff hz him).2 (by linarith), le_of_not_gt fun hgt => ?_⟩
  linarith [(seven_pi_div_eight_lt_arg_iff hz him).1 hgt]

end UpperHalfPlane

/-! ### The sector is the bucket of the angle -/

/-- The pair (0, 0) has angle 0 and sector H (R162). -/
theorem inSector_arg_zero : InSector (Complex.arg ⟨(0 : ℤ), (0 : ℤ)⟩) (sector ⟨0, 0⟩) := by
  have harg : Complex.arg ⟨(0 : ℤ), (0 : ℤ)⟩ = 0 := by
    rw [show (⟨(0 : ℤ), (0 : ℤ)⟩ : ℂ) = 0 by apply Complex.ext <;> simp, Complex.arg_zero]
  rw [harg]
  exact .inl ⟨le_rfl, by positivity⟩

/-- A pair of the upper half plane falls in the sector of its angle. -/
theorem inSector_arg {g : Grad} (hgy : 0 ≤ g.gy) : InSector (Complex.arg ⟨g.gx, g.gy⟩) (sector g) := by
  obtain ⟨x, y⟩ := g
  by_cases h0 : x = 0 ∧ y = 0
  · obtain ⟨rfl, rfl⟩ := h0
    exact inSector_arg_zero
  have hz : (⟨x, y⟩ : ℂ) ≠ 0 := fun h => h0 (by simpa [Complex.ext_iff] using h)
  have him : 0 ≤ (⟨x, y⟩ : ℂ).im := Int.cast_nonneg hgy
  rw [sector_eq, if_neg h0]
  split_ifs with hH hV hD
  · exact inSector_H_of_lt hz him hH
  · exact inSector_V_of_lt hz him hV
  all_goals
    have hH' := lt_of_le_of_ne (not_lt.1 hH) (sqrt_two_mul_abs_ne h0)
    have hV' := lt_of_le_of_ne (not_lt.1 hV) (by rw [add_comm]; exact sqrt_two_mul_abs_ne (by rwa [and_comm]))
  · have hx : 0 < x := pos_of_mul_pos_left hD hgy
    exact inSector_D1_of_lt hz him (Int.cast_pos.2 hx) hH' hV'
  · have hle : |(x : ℝ)| ≤ √2 * |(x : ℝ)| := le_mul_of_one_le_left (abs_nonneg _) Real.one_lt_sqrt_two.le
    have hy : 0 < y := hgy.lt_of_ne' (by simpa using pos_of_lt_add_right (hle.trans_lt hH'))
    have hx : x ≤ 0 := nonpos_of_mul_nonpos_left (not_lt.1 hD) hy
    exact inSector_D2_of_lt hz him (Int.cast_nonpos.2 hx) hH' hV'

/-- The four sectors are disjoint: each pair of them has a boundary between, and π/8 and 7π/8 leave H apart. -/
theorem inSector_unique {θ : ℝ} {j k : Sector} (hj : InSector θ j) (hk : InSector θ k) : j = k := by
  have hpi := Real.pi_pos
  cases j <;> cases k <;> grind [InSector]

/-- A pair of the lower half plane has the angle of its negation, which lies in the upper one (R162). -/
theorem foldedAngle_of_gy_neg {g : Grad} (h : g.gy < 0) :
    foldedAngle g = Complex.arg ⟨(-g.gx : ℤ), (-g.gy : ℤ)⟩ := by
  have him : (⟨g.gx, g.gy⟩ : ℂ).im < 0 := Int.cast_lt_zero.2 h
  rw [foldedAngle, if_pos (Complex.arg_neg_iff.2 him), ← Complex.arg_neg_eq_arg_add_pi_of_im_neg him]
  congr 1
  apply Complex.ext <;> simp

theorem foldedAngle_of_gy_nonneg {g : Grad} (h : 0 ≤ g.gy) : foldedAngle g = Complex.arg ⟨g.gx, g.gy⟩ := by
  have him : 0 ≤ (⟨g.gx, g.gy⟩ : ℂ).im := Int.cast_nonneg h
  exact if_neg (Complex.arg_nonneg_iff.2 him).not_gt

theorem inSector_foldedAngle (g : Grad) : InSector (foldedAngle g) (sector g) := by
  obtain h | h := lt_or_ge g.gy 0
  · rw [foldedAngle_of_gy_neg h, ← sector_neg]
    exact inSector_arg (neg_nonneg.2 h.le)
  · rw [foldedAngle_of_gy_nonneg h]
    exact inSector_arg h

/-- Settles O53: a pair lies in the bucket of its angle, and the buckets are disjoint. -/
theorem sectorIsTheAngleBucket : Obligations.SectorIsTheAngleBucket :=
  ⟨fun g _ => ⟨fun h => h ▸ inSector_foldedAngle g, inSector_unique (inSector_foldedAngle g)⟩, sector_neg⟩

/-! ### The suppressed plane -/

/-- The model's neighbours are the statements' n1 and n2 (R163). -/
theorem neighbours_eq_comparedWith (S : Plane) (r c : Nat) (k : Sector) :
    neighbours S r c k = comparedWith S r c k := by cases k <;> rfl

/-- The rule's pixel, with the interior and the neighbours as the statements write them (R161, R163, R165). -/
theorem nmsPixel_eq (l : Latch) (G : Nat → Nat → Grad) (S : Plane) (r c : Nat) :
    nmsPixel l.width l.height G S r c =
      if Inside l r c ∧ (comparedWith S r c (sector (G r c))).1 ≤ S r c ∧
        (comparedWith S r c (sector (G r c))).2 ≤ S r c then S r c else 0 := by
  simp only [nmsPixel, keepIfMax, isInterior_iff, neighbours_eq_comparedWith, ite_and]
  rfl

/-- A kept pixel is the source's and any other is 0 (R164). -/
theorem nmsPixel_le (w h : Nat) (G : Nat → Nat → Grad) (S : Plane) (r c : Nat) : nmsPixel w h G S r c ≤ S r c := by
  unfold nmsPixel keepIfMax
  split_ifs
  · exact le_rfl
  · exact Nat.zero_le _
  · exact Nat.zero_le _

/-- Every neighbour of an interior pixel lies inside the plane, so what stands outside does not matter. -/
theorem nmsPixel_congr {w h : Nat} {G G' : Nat → Nat → Grad} {S S' : Plane}
    (hG : ∀ r c, r < h → c < w → G r c = G' r c) (hS : ∀ r c, r < h → c < w → S r c = S' r c) (r c : Nat) :
    nmsPixel w h G S r c = nmsPixel w h G' S' r c := by
  unfold nmsPixel
  split_ifs with hin
  · obtain ⟨-, hr, -, hc⟩ := (isInterior_iff w h r c).1 hin
    have hrow : ∀ r', r' < h → S r' (c - 1) = S' r' (c - 1) ∧ S r' c = S' r' c ∧ S r' (c + 1) = S' r' (c + 1) :=
      fun r' hr' => ⟨hS r' _ hr' (by omega), hS r' c hr' (by omega), hS r' _ hr' (by omega)⟩
    have hneighbours : ∀ k, neighbours S r c k = neighbours S' r c k := fun k => by
      cases k <;> simp only [neighbours, hrow (r - 1) (by omega), hrow r (by omega), hrow (r + 1) (by omega)]
    rw [hG r c (by omega) (by omega), hS r c (by omega) (by omega), hneighbours]
  · rfl

/-- Settles O8: the destination holds the rule's plane of the samples and the snapshot's pairs, which are S and G there. -/
theorem nmsKeepsLocalMaxima : Obligations.NmsKeepsLocalMaxima := by
  intro s l S G h hG
  refine ⟨s.delivered .nms l, exec_of_ready h, State.delivered_completed_keep h (by decide),
    State.delivered_sameOutside .nms l s, fun r c hr hc => ?_⟩
  have hpairs : ∀ r c, r < l.height → c < l.width → l.gradAt r c = G r c := fun r c hr hc => by
    rw [Latch.gradAt, List.getD_eq_getElem?_getD]
    exact congrArg (Option.getD · _) (hG r c hr hc)
  have hpixel : nmsPixel l.width l.height l.gradAt (l.sample s.draws) r c = nmsPixel l.width l.height G S r c :=
    nmsPixel_congr hpairs (fun _ _ => Latch.sample_of_holdsSource h.source s.draws) r c
  rw [← nmsPixel_eq, ← hpixel]
  exact State.delivered_byteIs_of_render h rfl hr hc ((nmsPixel_le _ _ _ _ r c).trans (l.sample_le s.draws r c))

end Sys2Proof.Machine
end

section
/-! PROOFS. THRESH (44_edge_thresholder.md): the two constants, the class of a sample, and the completion. -/

namespace Sys2Proof.Machine

open Sys2Proof.Claims

/-! ### The constants of the source -/

/-- The two squares around n fix the root of n / 4, rounded down. -/
theorem eq_sqrt_div_four {V n : Nat} (hle : 4 * (V * V) ≤ n) (hlt : n < 4 * ((V + 1) * (V + 1))) :
    V = Nat.sqrt (n / 4) :=
  Nat.eq_sqrt.2 ⟨(Nat.le_div_iff_mul_le four_pos).2 (by rwa [mul_comm]), Nat.div_lt_of_lt_mul hlt⟩

/-- Settles O54: the bounds that fix V hold of 337, and both constants are computed from it. -/
theorem thresholdConstantsComeFromTheFormula : Obligations.ThresholdConstantsComeFromTheFormula := by
  intro V hle hlt
  obtain rfl : V = 337 := (eq_sqrt_div_four hle hlt).trans (eq_sqrt_div_four (by decide) (by decide)).symm
  exact ⟨rfl, rfl, rfl, rfl, rfl⟩

/-! ### The class of a sample -/

section PixelClass

variable {low high p : Nat}

theorem pixelClass_of_le_low (h : p ≤ low) : pixelClass low high p = 0 := if_pos h

theorem pixelClass_of_low_lt (h : low < p) : pixelClass low high p = if p ≤ high then 1 else 255 :=
  if_neg (Nat.not_le_of_lt h)

/-- The class as R181 writes it, each case with both its bounds. -/
theorem pixelClass_eq (low high p : Nat) :
    pixelClass low high p = if p ≤ low then 0 else if low < p ∧ p ≤ high then 1 else 255 := by
  rcases le_or_gt p low with hle | hlt
  · rw [pixelClass_of_le_low hle, if_pos hle]
  · simp only [pixelClass_of_low_lt hlt, hlt, Nat.not_le_of_lt hlt, true_and, if_false]

/-- NonEdge, Weak or Strong (R181). -/
theorem pixelClass_cases (low high p : Nat) :
    pixelClass low high p = 0 ∨ pixelClass low high p = 1 ∨ pixelClass low high p = 255 := by
  unfold pixelClass
  split_ifs
  · exact .inl rfl
  · exact .inr (.inl rfl)
  · exact .inr (.inr rfl)

theorem pixelClass_le_255 (low high p : Nat) : pixelClass low high p ≤ 255 := by
  have := pixelClass_cases low high p
  omega

theorem pixelClass_le_one (h : p ≤ high) : pixelClass low high p ≤ 1 := by
  unfold pixelClass
  split_ifs
  · exact Nat.zero_le 1
  · exact le_rfl

/-- The class of the larger sample bounds the class of every smaller one, case by case (R184). -/
theorem pixelClass_monotone (low high : Nat) : Monotone (pixelClass low high) := by
  intro p p' hle
  rcases le_or_gt p' low with hlow | hlow
  · rw [pixelClass_of_le_low (hle.trans hlow)]
    exact Nat.zero_le _
  · rw [pixelClass_of_low_lt hlow]
    split_ifs with hhigh
    · exact pixelClass_le_one (hle.trans hhigh)
    · exact pixelClass_le_255 low high p

/-- No sample is Weak when HIGH_T is not above LOW_T (R182). -/
theorem pixelClass_of_high_le_low (h : high ≤ low) (p : Nat) :
    pixelClass low high p = if p ≤ low then 0 else 255 := by
  split_ifs with hp
  · exact pixelClass_of_le_low hp
  · rw [pixelClass_of_low_lt (by omega), if_neg (by omega)]

end PixelClass

/-- Settles O55: with the constants of this hardware HIGH_T = 101 lies below LOW_T = 168. -/
theorem classIsMonotonic : Obligations.ClassIsMonotonic :=
  ⟨fun low high _ _ hle => pixelClass_monotone low high hle, pixelClass_cases,
    pixelClass_of_high_le_low (by decide : Literals.source.highT ≤ Literals.source.lowT)⟩

/-! ### The completion -/

/-- Settles O9: the destination holds the classes of the samples, and the samples inside the plane are S. -/
theorem threshClassifiesEveryPixel : Obligations.ThreshClassifiesEveryPixel := by
  refine ⟨decodeWord_encode .thresh, rfl, rfl, fun s l S h => ?_⟩
  refine ⟨s.delivered .thresh l, exec_of_ready h, State.delivered_completed_keep h (by decide),
    State.delivered_sameOutside .thresh l s, fun r c hr hc => ?_⟩
  rw [← pixelClass_eq, ← Latch.sample_of_holdsSource h.source s.draws hr hc]
  exact State.delivered_byteIs_of_render h rfl hr hc (pixelClass_le_255 _ _ _)

end Sys2Proof.Machine
end

section
/-! PROOFS. HYST (45_hysteresis.md): the neighbours of an interior pixel, the connected plane, and the completion. -/

namespace Sys2Proof.Machine

open Sys2Proof.Claims

/-! ### The neighbours of an interior pixel -/

/-- Off row 0 and column 0 the model's list of neighbours is the statements' 3×3 window without its centre (R11). -/
theorem mem_eightNeighbours_iff_strongBeside (S : Plane) {r c : Nat} (hr : 1 ≤ r) (hc : 1 ≤ c) :
    255 ∈ eightNeighbours S r c ↔ StrongBeside S r c := by
  constructor
  · intro hmem
    simp only [eightNeighbours, List.mem_cons, List.not_mem_nil, or_false] at hmem
    have hbeside : ∀ r' c', 255 = S r' c' →
        r ≤ r' + 1 ∧ r' ≤ r + 1 ∧ c ≤ c' + 1 ∧ c' ≤ c + 1 ∧ (r' ≠ r ∨ c' ≠ c) → StrongBeside S r c := fun r' c' hS ⟨hr1, hr2, hc1, hc2, hne⟩ =>
      ⟨r', c', hr1, hr2, hc1, hc2, by simpa [Prod.ext_iff, imp_iff_not_or] using hne, hS.symm⟩
    rcases hmem with h | h | h | h | h | h | h | h <;> exact hbeside _ _ h (by omega)
  · rintro ⟨r', c', hr1, hr2, hc1, hc2, hne, hS⟩
    have hrow : r' = r - 1 ∨ r' = r ∨ r' = r + 1 := by omega
    have hcol : c' = c - 1 ∨ c' = c ∨ c' = c + 1 := by omega
    rw [← hS]
    rcases hrow with rfl | rfl | rfl <;> rcases hcol with rfl | rfl | rfl <;> simp_all [eightNeighbours]

/-- Every neighbour of an interior pixel lies inside the plane, so what stands outside does not matter. -/
theorem eightNeighbours_congr {w h : Nat} {S S' : Plane} (hS : ∀ r c, r < h → c < w → S r c = S' r c) {r c : Nat}
    (hr : r + 2 ≤ h) (hc : c + 2 ≤ w) : eightNeighbours S r c = eightNeighbours S' r c := by
  have hrow : ∀ r', r' < h → S r' (c - 1) = S' r' (c - 1) ∧ S r' c = S' r' c ∧ S r' (c + 1) = S' r' (c + 1) :=
    fun r' hr' => ⟨hS r' _ hr' (by omega), hS r' c hr' (by omega), hS r' _ hr' (by omega)⟩
  simp only [eightNeighbours, hrow (r - 1) (by omega), hrow r (by omega), hrow (r + 1) (by omega)]

/-! ### The connected plane -/

/-- Strong stays, and Weak becomes 255 exactly beside a Strong (R201). -/
theorem connectPixel_eq_255_iff (S : Plane) (r c : Nat) :
    connectPixel S r c = 255 ↔ S r c = 255 ∨ (S r c = 1 ∧ 255 ∈ eightNeighbours S r c) := by
  unfold connectPixel
  split_ifs with hstrong hweak hany
  · simp [hstrong]
  · simpa [hweak] using hany
  · simpa [hweak] using hany
  · simp [hstrong, hweak]

/-- The pass leaves no Weak pixel (R201, R203). -/
theorem connectPixel_cases (S : Plane) (r c : Nat) : connectPixel S r c = 0 ∨ connectPixel S r c = 255 := by
  unfold connectPixel
  split_ifs
  · exact .inr rfl
  · exact .inr rfl
  · exact .inl rfl
  · exact .inl rfl

/-- A pixel that is 0 or Strong stays as it is (R205). -/
theorem connectPixel_of_not_weak {S : Plane} {r c : Nat} (hS : S r c = 0 ∨ S r c = 255) :
    connectPixel S r c = S r c := by
  rcases hS with hzero | hstrong
  · simp [connectPixel, hzero]
  · simp [connectPixel, hstrong]

theorem hystPixel_of_interior {w h r c : Nat} (hin : isInterior w h r c = true) (S : Plane) :
    hystPixel w h S r c = connectPixel S r c := if_pos hin

theorem hystPixel_of_border {w h r c : Nat} (hin : ¬ isInterior w h r c = true) (S : Plane) :
    hystPixel w h S r c = 0 := if_neg hin

theorem hystPixel_cases (w h : Nat) (S : Plane) (r c : Nat) :
    hystPixel w h S r c = 0 ∨ hystPixel w h S r c = 255 := by
  by_cases hin : isInterior w h r c = true
  · rw [hystPixel_of_interior hin]
    exact connectPixel_cases S r c
  · exact .inl (hystPixel_of_border hin S)

theorem hystPixel_le_255 (w h : Nat) (S : Plane) (r c : Nat) : hystPixel w h S r c ≤ 255 := by
  have := hystPixel_cases w h S r c
  omega

/-- The rule's Strong pixels, with the interior and the neighbours as the statements write them (R201, R202). -/
theorem hystPixel_eq_255_iff (l : Latch) (S : Plane) (r c : Nat) :
    hystPixel l.width l.height S r c = 255 ↔ Inside l r c ∧ (S r c = 255 ∨ (S r c = 1 ∧ StrongBeside S r c)) := by
  by_cases hin : isInterior l.width l.height r c = true
  · have hinside : Inside l r c := (isInterior_iff l.width l.height r c).1 hin
    have ⟨hr, _, hc, _⟩ := hinside
    rw [hystPixel_of_interior hin, connectPixel_eq_255_iff, mem_eightNeighbours_iff_strongBeside S hr hc,
      and_iff_right hinside]
  · have houtside : ¬ Inside l r c := mt (isInterior_iff l.width l.height r c).2 hin
    simp [hystPixel_of_border hin, houtside]

theorem hystPixel_congr {w h : Nat} {S S' : Plane} (hS : ∀ r c, r < h → c < w → S r c = S' r c) (r c : Nat) :
    hystPixel w h S r c = hystPixel w h S' r c := by
  by_cases hin : isInterior w h r c = true
  · obtain ⟨-, hr, -, hc⟩ := (isInterior_iff w h r c).1 hin
    simp only [hystPixel_of_interior hin, connectPixel, hS r c (by omega) (by omega), eightNeighbours_congr hS hr hc]
  · simp only [hystPixel_of_border hin]

/-- Settles O56: the first pass leaves no Weak pixel, so the second keeps the interior, and the border is 0 in both. -/
theorem hystIsIdempotent : Obligations.HystIsIdempotent := by
  intro w h S r c
  by_cases hin : isInterior w h r c = true
  · rw [hystPixel_of_interior hin, connectPixel_of_not_weak (hystPixel_cases w h S r c)]
  · rw [hystPixel_of_border hin, hystPixel_of_border hin]

/-! ### The completion -/

/-- Settles O10: the destination holds the connected plane of the samples, and the samples inside the plane are S. -/
theorem hystPromotesWeakBesideStrong : Obligations.HystPromotesWeakBesideStrong := by
  intro s l S h
  refine ⟨s.delivered .hyst l, exec_of_ready h, State.delivered_completed_keep h (by decide),
    State.delivered_sameOutside .hyst l s, fun r c hr hc => ?_⟩
  have hsamples : hystPixel l.width l.height (l.sample s.draws) r c = hystPixel l.width l.height S r c :=
    hystPixel_congr (fun _ _ => Latch.sample_of_holdsSource h.source s.draws) r c
  have hbyte : ByteIs (s.delivered .hyst l).mem (l.dst.toNat + (r * l.w.toNat + c))
      (hystPixel l.width l.height (l.sample s.draws) r c) :=
    State.delivered_byteIs_of_render h rfl hr hc (hystPixel_le_255 _ _ _ r c)
  exact ⟨hystPixel l.width l.height S r c, hsamples ▸ hbyte, hystPixel_cases l.width l.height S r c,
    hystPixel_eq_255_iff l S r c⟩

end Sys2Proof.Machine
end

section
/-! PROOFS. HTONE (46_halftone.md): the pattern of a bucket, the block of a source pixel, and the completion. -/

namespace Sys2Proof.Machine

open Sys2Proof.Claims

/-- The bucket and its pattern in one, as the statements write them (R222, R223). -/
theorem patternOf_bucket (t : Patterns) (band p : Nat) : patternOf t (bucket band p) = patternFor t band p := by
  unfold bucket patternFor
  split_ifs <;> rfl

/-- Row parity a and column parity b of a block give the byte of its source pixel's pattern (R221). -/
theorem htonePixel_block (t : Patterns) (band : Nat) (S : Plane) (r c : Nat) {a b : Nat} (ha : a < 2) (hb : b < 2) :
    htonePixel t band S (2 * r + a) (2 * c + b) = (patternByte (patternFor t band (S r c)) a b).toNat := by
  have hhalf : ∀ n k, k < 2 → (2 * n + k) / 2 = n ∧ (2 * n + k) % 2 = k := fun n k hk => by omega
  obtain ⟨hrow, hrowParity⟩ := hhalf r a ha
  obtain ⟨hcol, hcolParity⟩ := hhalf c b hb
  rw [htonePixel, hrow, hcol, hrowParity, hcolParity, patternOf_bucket]

/-- `ByteIs` speaks of integers, the patterns are bytes: a byte is fixed by its integer. -/
theorem read_of_byteIs_toNat {m : Memory} {a : Nat} {b : Byte} (h : ByteIs m a b.toNat) :
    Memory.read m a = some b := by
  obtain ⟨b', hread, hb'⟩ := h
  rw [hread, BitVec.eq_of_toNat_eq hb']

/-- The block of source pixel (r, c), at the stride 2W of the destination plane (R221). -/
theorem State.delivered_htone_block {s : State} {l : Latch} {S : Nat → Nat → Nat} (h : Ready .htone s l S) {r c : Nat}
    (hr : r < l.h.toNat) (hc : c < l.w.toNat) (a b : Nat) (ha : a < 2) (hb : b < 2) :
    Memory.read (s.delivered .htone l).mem (l.dst.toNat + ((2 * r + a) * (2 * l.w.toNat) + (2 * c + b))) =
      some (patternByte (patternFor s.params.patterns s.params.literals.htBand (S r c)) a b) := by
  have hrow : 2 * r + a < 2 * l.h.toNat := by omega
  have hcol : 2 * c + b < 2 * l.w.toNat := by omega
  have hpixel := htonePixel_block s.params.patterns s.params.literals.htBand (l.sample s.draws) r c ha hb
  rw [Latch.sample_of_holdsSource h.source s.draws hr hc] at hpixel
  apply read_of_byteIs_toNat
  rw [← hpixel]
  exact State.delivered_byteIs_of_render h rfl hrow hcol (hpixel ▸ Nat.le_of_lt_succ (BitVec.isLt _))

/-- Settles O11: the four bytes of a block are those of its pattern at the four pairs of parities. -/
theorem htoneWritesThePatternOfEachBucket : Obligations.HtoneWritesThePatternOfEachBucket := by
  refine ⟨rfl, fun s l S h => ?_⟩
  refine ⟨s.delivered .htone l, exec_of_ready h, State.delivered_completed_keep h (by decide),
    State.delivered_sameOutside .htone l s, fun r c hr hc => ?_⟩
  have hblock := State.delivered_htone_block h hr hc
  exact ⟨hblock 0 0 (by decide) (by decide), hblock 0 1 (by decide) (by decide),
    hblock 1 0 (by decide) (by decide), hblock 1 1 (by decide) (by decide)⟩

end Sys2Proof.Machine
end

section
/-! PROOFS. FSDITH (47_floyd_steinberg.md): the nearest level, the exact error, the error field visit by visit, and the
completion. -/

namespace Sys2Proof.Machine

open Sys2Proof.Claims

/-! ### The nearest level -/

/-- FS_STEP in units of 2^-149. -/
def stepUnits (step : Nat) : ℤ := step * 2 ^ 149

theorem stepUnits_pos {step : Nat} (h : 1 ≤ step) : 0 < stepUnits step := by
  unfold stepUnits
  positivity

theorem level_units (step k : Nat) : (step : ℤ) * k * 2 ^ 149 = k * stepUnits step := by
  rw [stepUnits]
  ring

/-- The level of R242 over the integers: v in steps with a half added, rounded down and clamped to 0 to 15. -/
theorem quant_eq (step : Nat) (v : F32) :
    quant step v = step * (min 15 (max 0 ((2 * v.units + stepUnits step) / (2 * stepUnits step)))).toNat := by
  have hone : ((step * F32.one : ℕ) : ℤ) = stepUnits step := by simp [F32.one, stepUnits]
  have htwo : ((2 * step * F32.one : ℕ) : ℤ) = 2 * stepUnits step := by rw [← hone]; push_cast; ring
  rw [quant, hone, htwo]

/-- The level k of `v`: unless it is the lowest, v is at most half a step below it; unless it is the highest, v is less than
half a step above it. -/
theorem quant_spec {step : Nat} (hstep : 1 ≤ step) (v : F32) :
    ∃ k : Nat, k ≤ 15 ∧ quant step v = step * k ∧
      (1 ≤ k → 2 * (k * stepUnits step) ≤ 2 * v.units + stepUnits step) ∧
      (k < 15 → 2 * v.units < 2 * (k * stepUnits step) + stepUnits step) := by
  have hD := stepUnits_pos hstep
  have hle := Int.mul_ediv_self_le (x := 2 * v.units + stepUnits step) (k := 2 * stepUnits step) (by omega)
  have hlt := Int.lt_mul_ediv_self_add (x := 2 * v.units + stepUnits step) (k := 2 * stepUnits step) (by omega)
  have hquant := quant_eq step v
  generalize (2 * v.units + stepUnits step) / (2 * stepUnits step) = q at hle hlt hquant
  refine ⟨_, by omega, hquant, fun hk => ?_, fun hk => ?_⟩
  · have hq : ((min 15 (max 0 q)).toNat : ℤ) ≤ q := by omega
    nlinarith only [hle, hq, hD]
  · have hq : q ≤ (min 15 (max 0 q)).toNat := by omega
    nlinarith only [hlt, hq, hD]

/-- With levels `D` apart, the one within half a step of `v`, on each side where there is another, is nearest, the upper one at
a tie. -/
theorem nearest_level {v D : ℤ} {k k' : Nat} (hD : 0 < D) (hlow : k' < k → 2 * (k * D) ≤ 2 * v + D)
    (hup : k < k' → 2 * v < 2 * (k * D) + D) :
    |v - k * D| ≤ |v - k' * D| ∧ (|v - k * D| = |v - k' * D| → k' ≤ k) := by
  have hk := abs_cases (v - k * D)
  have hk' := abs_cases (v - k' * D)
  obtain h | rfl | h := lt_trichotomy k' k
  · have hstep : ((k' : ℤ) + 1) * D ≤ k * D := by gcongr; omega
    have := hlow h
    rw [add_one_mul] at hstep
    omega
  · exact ⟨le_rfl, fun _ => le_rfl⟩
  · have hstep : ((k : ℤ) + 1) * D ≤ k' * D := by gcongr; omega
    have := hup h
    rw [add_one_mul] at hstep
    omega

/-- Settles O57: a level within half a step of v is nearest, and only the lowest and the highest are ever farther away. -/
theorem quantIsTheNearestLevel : Obligations.QuantIsTheNearestLevel := by
  refine ⟨rfl, fun step v hstep => ?_⟩
  obtain ⟨k, hk, hquant, hlow, hup⟩ := quant_spec hstep v
  refine ⟨k, hk, hquant, fun k' hk' => ?_⟩
  rw [level_units, level_units]
  exact nearest_level (stepUnits_pos hstep) (fun h => hlow (by omega)) (fun h => hup (by omega))

/-! ### The exact error -/

/-- A binary32 value is its own rounding. -/
theorem fl32_of_representable {u : ℤ} (h : Representable u) : (fl32 u 0).units = u := by
  obtain ⟨-, hnear⟩ := isRounding_fl32 u 0
  have hle := (hnear u h).1
  rw [pow_zero, mul_one, mul_one, sub_self, abs_zero, abs_nonpos_iff] at hle
  omega

/-- A multiple of 2^k below 2^(24+k) is a binary32 value. -/
theorem representable_of_dvd {u : ℤ} {k : Nat} (hdvd : 2 ^ k ∣ u.natAbs) (hlt : u.natAbs < 2 ^ (24 + k)) :
    Representable u := by
  obtain ⟨m, hm⟩ := hdvd
  refine ⟨m, k, ?_, hm.trans (mul_comm _ _)⟩
  rw [hm, pow_add, mul_comm] at hlt
  exact lt_of_mul_lt_mul_right hlt (Nat.zero_le _)

/-- Sterbenz: the difference of two binary32 values within a factor of two of each other is one. It is a multiple of the
smaller of the two grid steps, and no larger than the value on that grid. -/
theorem representable_sub {u v : ℤ} (hu : Representable u) (hv : Representable v) (huv : u ≤ 2 * v) (hvu : v ≤ 2 * u) :
    Representable (u - v) := by
  obtain ⟨m, j, hm, hu⟩ := hu
  obtain ⟨n, k, hn, hv⟩ := hv
  have hmul : ∀ a i c, c ≤ i → 2 ^ c ∣ a * 2 ^ i := fun a i c hc => Dvd.dvd.mul_left (pow_dvd_pow 2 hc) a
  have hbound : ∀ a i, a < 2 ^ 24 → a * 2 ^ i < 2 ^ (24 + i) := fun a i ha => by
    rw [pow_add]
    exact Nat.mul_lt_mul_of_pos_right ha (Nat.two_pow_pos i)
  have hdvd : ∀ c : Nat, c ≤ j → c ≤ k → 2 ^ c ∣ (u - v).natAbs := fun c hj hk => by
    have hcu : 2 ^ c ∣ u.natAbs := hu ▸ hmul m j c hj
    have hcv : 2 ^ c ∣ v.natAbs := hv ▸ hmul n k c hk
    exact Int.natCast_dvd.1 (dvd_sub (Int.natCast_dvd.2 hcu) (Int.natCast_dvd.2 hcv))
  obtain hjk | hkj := le_total j k
  · exact representable_of_dvd (hdvd j le_rfl hjk) (lt_of_le_of_lt (by omega) (hbound m j hm))
  · exact representable_of_dvd (hdvd k hkj le_rfl) (lt_of_le_of_lt (by omega) (hbound n k hn))

theorem representable_whole {k : Nat} (h : k < 2 ^ 24) : Representable (k * 2 ^ 149) :=
  ⟨k, 149, h, by rw [Int.natAbs_mul, Int.natAbs_natCast, Int.natAbs_pow]; rfl⟩

/-- Settles O59: level 0 leaves v itself; every other level lies within a factor of two of v, where the difference of two
binary32 values is a binary32 value. -/
theorem errorSubtractionIsExact : Obligations.ErrorSubtractionIsExact := by
  intro step v hstep hfit hv htop
  obtain ⟨k, hk, hquant, hlow, hup⟩ := quant_spec hstep v
  refine fl32_of_representable (u := v.units - quant step v * 2 ^ 149) ?_
  obtain rfl | hpos := Nat.eq_zero_or_pos k
  · simpa [hquant] using hv
  · have hlevel : (quant step v : ℤ) * 2 ^ 149 = k * stepUnits step := by
      rw [hquant, Nat.cast_mul, level_units]
    have hsmall : quant step v < 2 ^ 24 := by
      have : step * k ≤ step * 15 := Nat.mul_le_mul_left step hk
      omega
    have hD : stepUnits step ≤ k * stepUnits step := le_mul_of_one_le_left (stepUnits_pos hstep).le (by omega)
    have hhigh : v.units ≤ 2 * (k * stepUnits step) := by
      obtain hlt | rfl : k < 15 ∨ k = 15 := by omega
      · have := hup hlt
        omega
      · rw [stepUnits]
        push_cast
        linarith only [htop]
    refine representable_sub hv (representable_whole hsmall) ?_ ?_
    · rwa [hlevel]
    · have := hlow hpos
      rw [hlevel]
      omega

/-! ### The four shares of a visit -/

theorem F32.ofNat_eq_whole (k : Nat) : F32.ofNat k = whole k := by simp [F32.ofNat, whole, F32.one]

theorem F32.sixteenths_eq_weight (k : Nat) : F32.sixteenths k = weight k := by simp [F32.sixteenths, weight]

section Shares

variable {w h r c k : Nat} (hk : r * w + c = k) (e wt : F32) (F : ErrorField) {n : Nat} (hn : n < F.length) (d : F32)

include hk hn

theorem spread_right_getD (hr : r < h) : (spread w h r (c + 1) e wt F).getD n d =
    if c + 1 < w ∧ n = k + 1 then (F.getD n d).add (e.mul wt) else F.getD n d := by
  rw [spread_getD _ _ _ _ _ _ _ _ hn]
  exact if_congr (by omega) rfl rfl

theorem spread_belowLeft_getD (hc : c < w) : (spread w h (r + 1) (c - 1) e wt F).getD n d =
    if r + 1 < h ∧ 1 ≤ c ∧ n + 1 = k + w then (F.getD n d).add (e.mul wt) else F.getD n d := by
  rw [spread_getD _ _ _ _ _ _ _ _ hn, add_one_mul]
  exact if_congr (by omega) rfl rfl

theorem spread_below_getD (hc : c < w) : (spread w h (r + 1) c e wt F).getD n d =
    if r + 1 < h ∧ n = k + w then (F.getD n d).add (e.mul wt) else F.getD n d := by
  rw [spread_getD _ _ _ _ _ _ _ _ hn, add_one_mul]
  exact if_congr (by omega) rfl rfl

theorem spread_belowRight_getD : (spread w h (r + 1) (c + 1) e wt F).getD n d =
    if r + 1 < h ∧ c + 1 < w ∧ n = k + w + 1 then (F.getD n d).add (e.mul wt) else F.getD n d := by
  rw [spread_getD _ _ _ _ _ _ _ _ hn, add_one_mul]
  exact if_congr (by omega) rfl rfl

/-- No cell is the neighbour of a pixel in two ways, so the four shares in turn are the one the statements give each cell
(R241, R244). -/
theorem diffuse_getD (hr : r < h) (hc : c < w) :
    (diffuse w h r c e F).getD n d = spreadError w h k e (F.getD · d) n := by
  obtain ⟨hrow, hcol⟩ : k / w = r ∧ k % w = c :=
    (Nat.div_mod_unique (Nat.zero_lt_of_lt hc)).2 ⟨by rw [← hk]; ring, hc⟩
  simp only [diffuse, spread_right_getD hk, spread_belowLeft_getD hk, spread_below_getD hk, spread_belowRight_getD hk,
    spread_length, hn, hr, hc, F32.sixteenths_eq_weight, spreadError, hrow, hcol]
  by_cases hright : c + 1 < w ∧ n = k + 1
  · rw [if_neg (by omega), if_neg (by omega), if_neg (by omega), if_pos hright, if_pos hright]
  rw [if_neg hright, if_neg hright]
  by_cases hleft : r + 1 < h ∧ 1 ≤ c ∧ n + 1 = k + w
  · rw [if_neg (by omega), if_neg (by omega), if_pos hleft, if_pos hleft]
  rw [if_neg hleft, if_neg hleft]
  by_cases hbelow : r + 1 < h ∧ n = k + w
  · rw [if_neg (by omega), if_pos hbelow, if_pos hbelow]
  rw [if_neg hbelow, if_neg hbelow]

end Shares

/-! ### The field before each visit -/

/-- Pixel k lies in row k / W and column k % W of the plane. -/
theorem pixel_position {w h k : Nat} (hk : k < w * h) : k / w < h ∧ k % w < w :=
  ⟨Nat.div_lt_of_lt_mul hk, Nat.mod_lt k (Nat.pos_of_mul_pos_right (Nat.zero_lt_of_lt hk))⟩

/-- The error field before pixel k is visited: seeded from the source, then spread by one visit after the other (R241). -/
def fieldBefore (step w h : Nat) (S : Plane) : Nat → ErrorField
  | 0 => errorField w h S
  | k + 1 =>
    let F := fieldBefore step w h S k
    diffuse w h (k / w) (k % w) (visit step (F.getD k (F32.ofNat 0))).error F

/-- The value of cell n before pixel k is visited. -/
def cellBefore (step w h : Nat) (S : Plane) (k n : Nat) : F32 := (fieldBefore step w h S k).getD n (F32.ofNat 0)

@[simp] theorem fieldBefore_length (step w h : Nat) (S : Plane) (k : Nat) :
    (fieldBefore step w h S k).length = w * h := by
  induction k with
  | zero => simp [fieldBefore, errorField]
  | succ k ih => rw [fieldBefore, diffuse_length, ih]

/-- The visits of the model take the values of the fields before them. -/
theorem ditherFrom_fieldBefore (step w h : Nat) (S : Plane) (n i : Nat) :
    ditherFrom step w h n i (fieldBefore step w h S i) =
      (List.range' i n).map fun k => visit step (cellBefore step w h S k k) := by
  induction n generalizing i with
  | zero => rfl
  | succ n ih =>
    rw [List.range'_succ, List.map_cons, ← ih (i + 1)]
    rfl

theorem ditherDest_eq (p : Params) (l : Latch) (S : Plane) :
    ditherDest p l S = (List.range (l.width * l.height)).map fun k =>
      BitVec.ofNat 8 (quant p.literals.fsStep (cellBefore p.literals.fsStep l.width l.height S k k)) := by
  have hpass := ditherFrom_fieldBefore p.literals.fsStep l.width l.height S (l.width * l.height) 0
  rw [ditherDest, dither, List.range_eq_range']
  exact (congrArg (List.map _) hpass).trans (List.map_map ..)

theorem cellBefore_zero {step w h n : Nat} (S : Plane) (hn : n < w * h) :
    cellBefore step w h S 0 n = whole (S (n / w) (n % w)) := by
  simp [cellBefore, fieldBefore, errorField, hn, F32.ofNat_eq_whole]

/-- One visit: e = v ⊖ q is spread around pixel k (R241). -/
theorem cellBefore_succ {step w h k n : Nat} (S : Plane) (hk : k < w * h) (hn : n < w * h) :
    cellBefore step w h S (k + 1) n =
      spreadError w h k ((cellBefore step w h S k k).sub (whole (quant step (cellBefore step w h S k k))))
        (cellBefore step w h S k) n := by
  obtain ⟨hr, hc⟩ := pixel_position hk
  rw [← F32.ofNat_eq_whole]
  exact diffuse_getD (Nat.div_add_mod' k w) _ _ (by rwa [fieldBefore_length]) _ hr hc

/-! ### The completion -/

/-- Whatever v is, its level is one of the sixteen (R242). -/
theorem quant_le (step : Nat) (v : F32) : quant step v ≤ step * 15 := by
  rw [quant_eq]
  exact Nat.mul_le_mul_left step (by omega)

/-- Settles O12: F k is the model's error field before visit k, and byte k of the destination is the level of visit k. -/
theorem fsdithDiffusesTheError : Obligations.FsdithDiffusesTheError := by
  refine ⟨rfl, fun s l S h hfit => ?_⟩
  refine ⟨s.delivered .fsdith l, exec_of_ready h, State.delivered_completed_keep h (by decide),
    State.delivered_sameOutside .fsdith l s,
    cellBefore s.params.literals.fsStep l.width l.height (l.sample s.draws), fun n hn => ?_,
    fun k hk => ⟨?_, fun n hn => ?_⟩⟩
  · obtain ⟨hr, hc⟩ := pixel_position hn
    rw [← Latch.sample_of_holdsSource h.source s.draws hr hc]
    exact cellBefore_zero _ hn
  · have hbytes : destOf .fsdith s.params l (l.sample s.draws) = _ := ditherDest_eq s.params l (l.sample s.draws)
    refine ⟨_, State.delivered_read_inside .fsdith l s k (readsUnwritten_of_holdsSource h.source) h.calm ?_, ?_⟩
    · rwa [destOf_length]
    · have hle := quant_le s.params.literals.fsStep
        (cellBefore s.params.literals.fsStep l.width l.height (l.sample s.draws) k k)
      simp only [hbytes, List.getElem_map, List.getElem_range]
      exact Nat.mod_eq_of_lt (by omega)
  · exact cellBefore_succ _ hk hn

end Sys2Proof.Machine
end

section
/-! PROOFS. BOXDS (48_box_downsampler.md): the sum of a block, its average, and the completion. -/

namespace Sys2Proof.Machine

open Sys2Proof.Claims

/-! ### The sum and the average of a block -/

/-- The sum of a block as the statements write it (R261). -/
theorem blockSum_eq_sum (bh bw : Nat) (S : Plane) (i j : Nat) :
    blockSum bh bw S i j = ∑ a ∈ Finset.range bh, ∑ b ∈ Finset.range bw, S (i * bh + a) (j * bw + b) := rfl

section Block

variable {bh bw i j m : Nat} {S : Plane}

theorem blockSum_le (hS : ∀ a b, a < bh → b < bw → S (i * bh + a) (j * bw + b) ≤ m) :
    blockSum bh bw S i j ≤ bh * bw * m := by
  have hrow : ∀ a ∈ Finset.range bh, ∑ b ∈ Finset.range bw, S (i * bh + a) (j * bw + b) ≤ bw * m := fun a ha => by
    simpa using Finset.sum_le_card_nsmul _ _ m fun b hb => hS a b (Finset.mem_range.1 ha) (Finset.mem_range.1 hb)
  simpa [blockSum_eq_sum, mul_assoc] using Finset.sum_le_card_nsmul _ _ _ hrow

theorem le_blockSum (hS : ∀ a b, a < bh → b < bw → m ≤ S (i * bh + a) (j * bw + b)) :
    bh * bw * m ≤ blockSum bh bw S i j := by
  have hrow : ∀ a ∈ Finset.range bh, bw * m ≤ ∑ b ∈ Finset.range bw, S (i * bh + a) (j * bw + b) := fun a ha => by
    simpa using Finset.card_nsmul_le_sum _ _ m fun b hb => hS a b (Finset.mem_range.1 ha) (Finset.mem_range.1 hb)
  simpa [blockSum_eq_sum, mul_assoc] using Finset.card_nsmul_le_sum _ _ _ hrow

theorem boxPixel_le (hS : ∀ a b, a < bh → b < bw → S (i * bh + a) (j * bw + b) ≤ m) : boxPixel bh bw S i j ≤ m :=
  Nat.div_le_of_le_mul (blockSum_le hS)

theorem le_boxPixel (hpos : 0 < bh * bw) (hS : ∀ a b, a < bh → b < bw → m ≤ S (i * bh + a) (j * bw + b)) :
    m ≤ boxPixel bh bw S i j :=
  (Nat.le_div_iff_mul_le hpos).2 ((mul_comm _ _).trans_le (le_blockSum hS))

/-- Row a of block i is a row of the plane: block rows end where the plane does, or before (R261). -/
theorem block_index_lt {n t i a : Nat} (hi : i < t) (ha : a < n / t) : i * (n / t) + a < n :=
  calc i * (n / t) + a < i * (n / t) + n / t := Nat.add_lt_add_left ha _
    _ = (i + 1) * (n / t) := by ring
    _ ≤ t * (n / t) := Nat.mul_le_mul_right _ hi
    _ ≤ n := Nat.mul_div_le n t

end Block

/-- Settles O60: a block of bh·bw samples between two bounds sums to between bh·bw times each. -/
theorem boxAverageLiesWithinItsBlock : Obligations.BoxAverageLiesWithinItsBlock := by
  intro bh bw i j lo hi S hbh hbw hS
  exact ⟨le_boxPixel (Nat.mul_pos hbh hbw) fun a b ha hb => (hS a b ha hb).1,
    boxPixel_le fun a b ha hb => (hS a b ha hb).2⟩

/-! ### The completion -/

/-- Settles O13: the destination holds the averages of the samples, and every sample of a block is one of S. -/
theorem boxdsAveragesBlocks : Obligations.BoxdsAveragesBlocks := by
  intro s l S h
  refine ⟨s.delivered .boxds l, exec_of_ready h, State.delivered_completed_keep h (by decide),
    State.delivered_sameOutside .boxds l s, fun i j hi hj => ?_⟩
  have hsamples : blockSum (l.h.toNat / l.th.toNat) (l.w.toNat / l.tw.toNat) (l.sample s.draws) i j =
      blockSum (l.h.toNat / l.th.toNat) (l.w.toNat / l.tw.toNat) S i j :=
    Finset.sum_congr rfl fun a ha => Finset.sum_congr rfl fun b hb =>
      Latch.sample_of_holdsSource h.source s.draws (block_index_lt hi (Finset.mem_range.1 ha))
        (block_index_lt hj (Finset.mem_range.1 hb))
  rw [← blockSum_eq_sum, ← hsamples]
  exact State.delivered_byteIs_of_render h rfl hi hj (boxPixel_le fun _ _ _ _ => l.sample_le s.draws _ _)

end Sys2Proof.Machine
end

section
/-! PROOFS. Exceptions (60_exceptions.md): a completion with an error, and the power cycle, after what a reset leaves. -/

namespace Sys2Proof.Machine

open Sys2Proof.Claims

/-! ### A completion with an error -/

/-- The engine's turn ends with the outcome's error, that of an illegal word too (R301, R302). -/
theorem engineTurn_of_outcome {s : State} {l : Latch} {e : CmdError} (hl : s.latch = some l)
    (ho : l.outcome s.params = some e) : engineTurn s = .next (s.failCommand e) := by
  cases hd : decodeWord l.cmd with
  | error d =>
    simp only [Latch.outcome, Latch.command?, commandOf?_eq_none.2 ⟨d, hd⟩, Option.some.injEq] at ho
    rw [engineTurn_illegal s l d hl hd, ho]
  | ok i =>
    simp only [Latch.outcome, Latch.command?, commandOf?_ok hd] at ho
    rw [engineTurn_run s l i hl hd, exec_fail i s l e hl ho]

/-- Settles O15: the first failing check is the outcome of the engine's turn and of `exec`, and `failCommand` is the state it
leads to. -/
theorem failedCheckChangesOnlyStatusAndCount : Obligations.FailedCheckChangesOnlyStatusAndCount := by
  refine ⟨fun s s' l e hnext hl hfirst => ?_, fun i s l e hl hfirst => ?_⟩
  · rw [← find?_checkFails_eq_some, ← outcome_eq_find?] at hfirst
    rw [step_of_engineNext hnext]
    obtain ⟨rest, rfl⟩ := exists_moveOn_of_engineNext hnext
    exact engineTurn_of_outcome (s := s.moveOn rest) hl hfirst
  · rw [← find?_checkFails_eq_some, ← checkOperands_eq_find?] at hfirst
    exact exec_fail i s l e hl hfirst

/-! ### What a reset leaves -/

theorem State.latch_eq_none_of_idle {s : State} (h : s.busy = false) : s.latch = none := by
  simpa [State.busy] using h

/-- A reset writes the registers, and the abort in it memory and the count of free values (R341, R342). -/
theorem State.resetBlock_eq (s : State) :
    s.resetBlock = { resetRegisters s with mem := s.resetBlock.mem, draws := s.resetBlock.draws } := by
  unfold State.resetBlock State.abort
  split <;> rfl

theorem State.resetBlock_idle {s : State} (h : s.latch = none) : s.resetBlock = resetRegisters s := by
  rw [State.resetBlock, State.abort_idle s h]
  rfl

/-! ### The power cycle -/

/-- Settles O41: the power cycle is the reset with memory emptied after it, so what its abort wrote there does not matter. -/
theorem powerCycleEmptiesFrameMemory : Obligations.PowerCycleEmptiesFrameMemory := by
  intro s rest ha
  have hstep : step s = .next (s.moveOn rest).powerCycle := by
    rw [step, ha]
    rfl
  refine ⟨_, hstep, ?_, fun a => rfl⟩
  rw [State.powerCycle, State.resetBlock_eq]
  rfl

end Sys2Proof.Machine
end

section
/-! PROOFS. Reset and hazards (70_reset_and_hazards.md): the reset state, a reset with and without a command running, the hard
reset line, a START while BUSY, and the ORIENT buffer. -/

namespace Sys2Proof.Machine

open Sys2Proof.Claims

/-! ### The reset state -/

/-- Settles O36: each register of the reset state is computed, and its memory is empty. -/
theorem resetStateReadsAsListed : Obligations.ResetStateReadsAsListed := by
  intro p
  have hstatus : (State.resetOf p).statusWord = 0 := by
    simp [State.statusWord, State.resetOf, State.busy, Orient.invalid, bitWord]
  exact ⟨rfl, rfl, hstatus, rfl, rfl, rfl, rfl, rfl, rfl, rfl, rfl, rfl, rfl, rfl, rfl, rfl, Memory.read_nil, rfl⟩

/-- Settles O45: memory and the latch are empty, DONE, ERR and ERR_CODE are 0, and the ORIENT buffer is the invalid one. -/
theorem resetHasTheInvariant : Obligations.ResetHasTheInvariant := fun p hp =>
  { params := hp
    canonical := List.Pairwise.nil
    inside := fun _ hc => nomatch hc
    busy := fun hb => nomatch hb
    error := by simp [State.resetOf]
    orient := Orient.good_invalid p
    latch := fun _ hl => nomatch hl
    reset := fun _ => rfl }

/-! ### A reset with no command running -/

theorem step_assertReset {s : State} {rest : List Event} (ha : s.agenda = .assertReset :: rest) :
    step s = .next (s.moveOn rest).assertReset := by
  rw [step, ha]
  rfl

/-- Settles O37: with no command to abort, the soft and the hard reset write the registers only. -/
theorem idleResetClearsRegistersOnly : Obligations.IdleResetClearsRegistersOnly := by
  have hreset {s : State} (hb : s.busy = false) (rest : List Event) :
      (s.moveOn rest).resetBlock = resetRegisters (s.moveOn rest) :=
    State.resetBlock_idle (State.latch_eq_none_of_idle hb)
  refine ⟨fun s v rest h h1 hb => ?_, fun s rest ha hb => ?_⟩
  · rw [step_writeReg h, State.writeReg, State.setReg, State.writeCtrl_reset _ h1, hreset hb]
    rfl
  · rw [step_assertReset ha, State.assertReset, hreset hb]
    rfl

/-- Settles O39: the first reset leaves no command running and every register at its reset value. -/
theorem secondResetChangesNothing : Obligations.SecondResetChangesNothing := fun s =>
  State.resetBlock_idle s.resetBlock_latch

/-! ### A reset that aborts a command -/

/-- What an abort may write: the destination region as far as it lies in frame memory (R342; log 12). -/
theorem mem_abortRegion_iff (p : Params) (l : Latch) (a : Nat) :
    (l.dst.toNat ≤ a ∧ a < l.dst.toNat + abortSize p l) ↔ InDest l a ∧ a < p.fmemBytes := by
  have hbase : l.dstBase = l.dst.toNat := rfl
  rw [InDest, abortSize, l.dstSize_eq_destSpan, hbase]
  omega

section Abort

variable {s : State} {l : Latch} (hl : s.latch = some l) {a : Nat}

include hl

theorem State.abort_mem : s.abort.mem = Memory.store s.mem l.dstBase (abortBytes l s.draws (abortSize s.params l)) := by
  simp only [State.abort, hl]

theorem State.abort_read_outside (h : ¬ (InDest l a ∧ a < s.params.fmemBytes)) :
    Memory.read s.abort.mem a = Memory.read s.mem a := by
  rw [← mem_abortRegion_iff] at h
  rw [State.abort_mem hl]
  refine Memory.read_store_outside _ _ _ _ ?_
  simp only [abortBytes, List.length_map, List.length_range, Latch.dstBase]
  omega

theorem State.abort_read_inside (h : InDest l a ∧ a < s.params.fmemBytes) :
    Memory.read s.abort.mem a =
      if l.raced || Config.freeBit (s.draws + (a - l.dst.toNat)) then
        some (Config.freeByte (s.draws + (a - l.dst.toNat)))
      else Memory.read s.mem a := by
  obtain ⟨hle, hlt⟩ := (mem_abortRegion_iff s.params l a).2 h
  obtain ⟨k, rfl⟩ := Nat.exists_eq_add_of_le hle
  have hk : k < (abortBytes l s.draws (abortSize s.params l)).length := by
    simpa [abortBytes] using hlt
  rw [State.abort_mem hl, Nat.add_sub_cancel_left]
  refine (Memory.read_store_inside _ _ _ k hk).trans ?_
  simp only [abortBytes, List.getElem_map, List.getElem_range]
  split_ifs <;> rfl

end Abort

/-- Settles O38: the abort writes free bytes, or keeps a byte, in the destination region inside frame memory only; all else is
the reset of the registers. -/
theorem abortTouchesOnlyTheDestination : Obligations.AbortTouchesOnlyTheDestination := by
  intro s l hl
  rw [s.resetBlock_mem]
  refine ⟨s.resetBlock_eq, fun a ha => ?_, fun a => ?_, fun hraced a hin hlt => ?_, fun hnone a => ?_,
    fun rest => step_assertReset⟩
  · exact State.abort_read_outside hl fun ⟨hin, hlt⟩ => ha.elim (absurd hin) (by omega)
  · by_cases ha : InDest l a ∧ a < s.params.fmemBytes
    · rw [State.abort_read_inside hl ha]
      split_ifs
      · exact .inr ⟨_, rfl⟩
      · exact .inl rfl
    · exact .inl (State.abort_read_outside hl ha)
  · rw [State.abort_read_inside hl ⟨hin, hlt⟩, hraced]
    exact ⟨_, rfl⟩
  · refine State.abort_read_outside hl fun ⟨⟨hle, hlt⟩, _⟩ => ?_
    rw [destSpan, hnone] at hlt
    exact absurd hlt (Nat.not_lt.2 hle)

/-! ### The hard reset line -/

/-- Settles O40: the access takes the refusing branch, whatever it is, and the release writes the line. -/
theorem hardResetRefusesEveryAccess : Obligations.HardResetRefusesEveryAccess := by
  refine ⟨fun s a rest ha hr => ?_, fun s rest ha => ?_⟩
  · have hstep : step s = .next (hostAccess a (s.moveOn rest)) := by
      rw [step, ha]
      rfl
    rw [hstep, hostAccess_of_hardReset (s := s.moveOn rest) a hr]
    rfl
  · rw [step, ha]
    rfl

/-! ### A START while BUSY -/

theorem State.writeCtrl_startIgnored {s : State} {v : Word} (hb : s.busy = true) (h0 : v.getLsbD 0 = true)
    (h1 : v.getLsbD 1 = false) : s.writeCtrl v = { s with irqEn := v.getLsbD 2 }.ignoreStart := by
  have hb' : { s with irqEn := v.getLsbD 2 }.busy = true := hb
  rw [State.writeCtrl, h1, h0, State.startAction, hb']
  rfl

/-- Settles O22: the CTRL write is the ignored START, after IRQ_EN is written. -/
theorem startWhileBusyIsIgnored : Obligations.StartWhileBusyIsIgnored := by
  intro s v rest h hb h0 h1
  have hwrite : (s.moveOn rest).writeCtrl v = { s.moveOn rest with irqEn := v.getLsbD 2 }.ignoreStart :=
    State.writeCtrl_startIgnored hb h0 h1
  rw [step_writeReg h, State.writeReg, State.setReg, hwrite]
  rfl

/-! ### The ORIENT buffer -/

/-- The model's checks pass exactly when no check of the statements fails (R102). -/
theorem checkOperands_eq_none_iff_passes (p : Params) (i : Instr) (l : Latch) :
    checkOperands p i l = none ↔ Passes p i l := by
  simp only [checkOperands_eq_find?, List.find?_eq_none, checkFails_iff, CmdError.mem_inOrder, forall_const, Passes]

/-- How a step may treat the ORIENT buffer: it keeps it, a reset invalidates it, or a SOBEL that passes its checks replaces it
(R33, R110, R354). -/
def OrientStep (s t : State) : Prop :=
  t.orient = s.orient ∨
    (t.orient.valid = false ∧ t.latch = none ∧ t.cmdCount = 0) ∨
    (∃ l, s.latch = some l ∧ commandOf? l.cmd = some .sobel ∧ Passes s.params .sobel l ∧
      t.latch = none ∧ t.done = true ∧ t.orient.valid = true ∧ t.orient.width = l.w ∧ t.orient.height = l.h)

theorem EngineOutcome.orientStep {s t : State} (ho : EngineOutcome s t) : OrientStep s t := by
  cases ho with
  | idle | fails => exact .inl rfl
  | delivers l i hl hd hc =>
    by_cases hi : i = .sobel
    · subst hi
      exact .inr (.inr ⟨l, hl, hd, (checkOperands_eq_none_iff_passes _ _ _).1 hc, rfl, rfl, rfl, rfl, rfl⟩)
    · exact .inl (State.delivered_orient_keep hi l s)

theorem State.resetBlock_orientStep (s : State) : OrientStep s s.resetBlock :=
  .inr (.inl ⟨by rw [s.resetBlock_orient]; rfl, s.resetBlock_latch, s.resetBlock_cmdCount⟩)

theorem WriteOutcome.orientStep {s t : State} (ho : WriteOutcome s t) : OrientStep s t := by
  cases ho with
  | reset => exact s.resetBlock_orientStep
  | interruptEnable | startIgnored | startAccepted | status | operands => exact .inl rfl

theorem hostAccess_orientStep (a : Access) (s : State) : OrientStep s (hostAccess a s) := by
  obtain ha | ⟨-, r, ha⟩ | ⟨-, r, v, ha⟩ | ⟨-, off, n, -, ha⟩ | ⟨-, off, n, v, -, ha⟩ := hostAccess_cases a s <;>
    rw [ha]
  · exact .inl rfl
  · exact .inl rfl
  · exact (s.setReg_outcome r v).orientStep
  · exact .inl rfl
  · exact .inl rfl

/-- Settles O47: each kind of event falls under one of the three cases of `OrientStep`. -/
theorem onlySobelAndResetChangeOrient : Obligations.OnlySobelAndResetChangeOrient := by
  intro s t hstep hne
  have hcases : OrientStep s t := by
    refine step_rel (R := OrientStep) ?_ ?_ ?_ ?_ ?_ ?_ hstep
    · exact fun s rest t hR => hR
    · exact fun s t ho => ho.orientStep
    · exact hostAccess_orientStep
    · exact State.resetBlock_orientStep
    · exact fun s => .inl rfl
    · exact State.resetBlock_orientStep
  exact hcases.resolve_left hne

end Sys2Proof.Machine
end
